-- ==== Sys2Proof/Word.lean ====
section
/-! DEFINITION. The two widths of NPKS's interface values (00_scope.md R11, R15). -/

namespace Sys2Proof

/-- A 32-bit unsigned value: operand, response, STATE, DIFF, CNT, L (R11). -/
abbrev Word := BitVec 32

/-- An 8-bit unsigned value: command byte, chunk byte, keystream byte (R11). -/
abbrev Byte := BitVec 8

end Sys2Proof
end

