-- ==== Sys2Proof/Machine/Errors.lean ====
section
/-! DEFINITION. The error codes of NPKS (60_exceptions.md R200). -/

namespace Sys2Proof

/-- The seven errors a command can raise (R200). Each is reported and recorded and the block goes on (R210). -/
inductive ErrCode where
  /-- Reserved opcode, or an unused V or P field that is not 0 (R202). -/
  | illegalCmd
  /-- SEED with variant id 3 (R203). -/
  | badVariant
  /-- An unused operand bit that is 1 (R204). -/
  | reservedOperand
  /-- GEN, SCORE or XFORM before the first SEED (R205). -/
  | unseeded
  /-- SCORE with a whole chunk already scored (R206). -/
  | scoreOverrun
  /-- A result read with no whole chunk scored (R207). -/
  | notReady
  /-- CFG with 0 or with no multiple of 8 (R208). -/
  | badLength
  deriving DecidableEq, Repr

/-- The number that ERRCODE holds for an error (R200). -/
def ErrCode.code : ErrCode → BitVec 4
  | .illegalCmd => 1#4
  | .badVariant => 2#4
  | .reservedOperand => 3#4
  | .unseeded => 4#4
  | .scoreOverrun => 5#4
  | .notReady => 6#4
  | .badLength => 7#4

end Sys2Proof
end

