-- ==== Sys2Proof/Machine/Operands.lean ====
section
/-! DEFINITION. Fields of the command byte (30_encoding.md R71), operand forms (R72, R73), and the byte and word
conversions of responses (R74). -/

namespace Sys2Proof

/-- OP, bits 7:3 of the command byte (R71). -/
def opField (cmd : Byte) : BitVec 5 := cmd.extractLsb' 3 5

/-- P, bit 2 of the command byte (R71). -/
def pField (cmd : Byte) : BitVec 1 := cmd.extractLsb' 2 1

/-- V, bits 1:0 of the command byte (R71). -/
def vField (cmd : Byte) : BitVec 2 := cmd.extractLsb' 0 2

/-- The three operand forms (R72). -/
inductive Form where
  /-- All 32 bits are the value. -/
  | w32
  /-- Bits 7:0 are the byte; bits 31:8 must be 0. -/
  | b8
  /-- All 32 bits must be 0. -/
  | none
  deriving DecidableEq, Repr

/-- The form of each opcode (R72). Opcodes 15..31 have no form; they are refused before the form is asked for. -/
def opForm (op : BitVec 5) : Form :=
  if op = 1#5 ∨ op = 12#5 then .w32
  else if op = 4#5 ∨ op = 5#5 then .b8
  else .none

/-- The operand bits a form does not use, as a number: those that must be 0, `opd[31:8]` for a byte (R72). -/
def reservedBits (f : Form) (opd : Word) : Word :=
  match f with
  | .w32 => 0#32
  | .b8 => opd >>> 8
  | .none => opd

/-- The low byte of a word: `opd[7:0]` of a B8 operand (R73), and the output byte of a generator state (R102). -/
def lowByte (w : Word) : Byte := w.extractLsb' 0 8

/-- A byte result zero-extended to a response (`zext_32`, R15, R74). -/
def zext32 (b : Byte) : Word := b.setWidth 32

/-- The mask XFORM applies: all ones when P is 1 (42_transform.md R160). -/
def polarityMask (p : BitVec 1) : Byte := if p = 1#1 then 0xFF#8 else 0x00#8

end Sys2Proof
end

