-- ==== Sys2Proof/Syntax.lean ====
section
/-! DEFINITION. The fifteen commands of NPKS, one constructor per row of the opcode map (30_encoding.md R75), with the
operands of R72 and R73: a W32 operand is the whole word, a B8 operand is its byte, V and P are fields of the command
byte. -/

namespace Sys2Proof

/-- A command of NPKS. -/
inductive Instr where
  /-- NOP (43_control.md R170). -/
  | nop
  /-- SEED v, value (40_keystream.md R100). -/
  | seed (v : BitVec 2) (value : Word)
  /-- GEN (40_keystream.md R103). -/
  | gen
  /-- SCLR (41_scorecard.md R121). -/
  | sclr
  /-- SCORE byte (41_scorecard.md R122). -/
  | score (c : Byte)
  /-- XFORM p, byte (42_transform.md R160). -/
  | xform (p : BitVec 1) (b : Byte)
  /-- RDDIFF (41_scorecard.md R123). -/
  | rddiff
  /-- RDZEROS (41_scorecard.md R124). -/
  | rdzeros
  /-- RDMATCH (41_scorecard.md R125). -/
  | rdmatch
  /-- RDFLAGS (41_scorecard.md R127). -/
  | rdflags
  /-- RDSTATE (43_control.md R172). -/
  | rdstate
  /-- RDSTAT (43_control.md R173). -/
  | rdstat
  /-- CFG bits (41_scorecard.md R120). -/
  | cfg (bits : Word)
  /-- RDCNT (41_scorecard.md R128). -/
  | rdcnt
  /-- RDLEN (41_scorecard.md R129). -/
  | rdlen
  deriving DecidableEq, Repr

end Sys2Proof
end

