-- ==== Sys2Proof/Decode.lean ====
section
/-! DEFINITION. The decoder of 30_encoding.md R76, total on every command byte and operand, and the encoder of R75 and
R79. -/

namespace Sys2Proof

/-- The command an opcode selects, with its operand assembled (R73, R75); none for the reserved opcodes 15..31. -/
def select (op : BitVec 5) (p : BitVec 1) (v : BitVec 2) (opd : Word) : Option Instr :=
  match op.toNat with
  | 0 => some .nop
  | 1 => some (.seed v opd)
  | 2 => some .gen
  | 3 => some .sclr
  | 4 => some (.score (lowByte opd))
  | 5 => some (.xform p (lowByte opd))
  | 6 => some .rddiff
  | 7 => some .rdzeros
  | 8 => some .rdmatch
  | 9 => some .rdflags
  | 10 => some .rdstate
  | 11 => some .rdstat
  | 12 => some (.cfg opd)
  | 13 => some .rdcnt
  | 14 => some .rdlen
  | _ => none

/-- Decoding (R76). The three ILLEGAL_CMD checks come first, then the operand form. DEDUCED, safe, log entry 5: 0x0B
"decodes as SEED and raises BAD_VARIANT" (R77), so it decodes to SEED 3 here and its meaning raises the error; SEED has
no operand check, so the order of R76 is kept. -/
def decode (cmd : Byte) (opd : Word) : Except ErrCode Instr :=
  match select (opField cmd) (pField cmd) (vField cmd) opd with
  | none => .error .illegalCmd
  | some i =>
    if opField cmd ≠ 1#5 ∧ vField cmd ≠ 0#2 then .error .illegalCmd
    else if opField cmd ≠ 5#5 ∧ pField cmd ≠ 0#1 then .error .illegalCmd
    else if reservedBits (opForm (opField cmd)) opd ≠ 0#32 then .error .reservedOperand
    else .ok i

/-- The command byte of a command (R75, R79). -/
def commandByte : Instr → Byte
  | .nop => 0x00#8
  | .seed v _ => 0x08#8 ||| v.setWidth 8
  | .gen => 0x10#8
  | .sclr => 0x18#8
  | .score _ => 0x20#8
  | .xform p _ => 0x28#8 ||| (p.setWidth 8 <<< 2)
  | .rddiff => 0x30#8
  | .rdzeros => 0x38#8
  | .rdmatch => 0x40#8
  | .rdflags => 0x48#8
  | .rdstate => 0x50#8
  | .rdstat => 0x58#8
  | .cfg _ => 0x60#8
  | .rdcnt => 0x68#8
  | .rdlen => 0x70#8

/-- The operand of a command (R72, R79). -/
def operandWord : Instr → Word
  | .nop => 0#32
  | .seed _ value => value
  | .gen => 0#32
  | .sclr => 0#32
  | .score c => zext32 c
  | .xform _ b => zext32 b
  | .rddiff => 0#32
  | .rdzeros => 0#32
  | .rdmatch => 0#32
  | .rdflags => 0#32
  | .rdstate => 0#32
  | .rdstat => 0#32
  | .cfg bits => bits
  | .rdcnt => 0#32
  | .rdlen => 0#32

/-- Encoding: the command byte and operand that stand for a command (R79). -/
def encode (i : Instr) : Byte × Word := (commandByte i, operandWord i)

/-- The command byte and operand in an instruction whose `nbits` bits are `w`: the command byte is bits 7:0, the operand
the 32 bits above it, bits above `nbits` being 0. DESIGN CHOICE, safe, log entry 9: NPKS has no byte order (20_memory.md
R53), so operand bit j is bit 8 + j. -/
def tableCommand (nbits w : Nat) : Byte × Word :=
  (BitVec.ofNat 8 (w % 2 ^ nbits), BitVec.ofNat 32 (w % 2 ^ nbits / 256))

/-- The command the decoder reads from a word of the opcode table; none where the decoder raises an error. -/
def decodeTableWord (nbits w : Nat) : Option Instr :=
  match decode (tableCommand nbits w).1 (tableCommand nbits w).2 with
  | .ok i => some i
  | .error _ => none

end Sys2Proof
end

