-- ==== Sys2Proof/Config.lean ====
section
/-! DEFINITION. The fixed parameters of this hardware (00_scope.md R9, R10). The spec leaves no value of the block open
(93_implementation_defined.md), so there is no free value here. -/

namespace Sys2Proof.Config

/-- K, the number of registered keystream variants (R9). -/
def variantCount : Nat := 3

/-- The chunk length in bits after reset: 3 × 512 (R10, R25, R39). -/
def resetLength : Word := 1536#32

end Sys2Proof.Config
end

