-- ==== Sys2Proof/Machine/State.lean ====
section
/-! DEFINITION. The state of one NPKS lane (10_state.md): its registers, and the interface values that stand between it
and the host (60_exceptions.md R222). -/

namespace Sys2Proof.Machine

/-- The outcome of a command: OK, or the error it raised (10_state.md R20, 60_exceptions.md R201). -/
inductive CmdOutcome where
  | ok
  | error (e : ErrCode)
  deriving DecidableEq, Repr

/-- What the host receives for one command: the 32-bit response and the outcome (R201, R222). -/
structure Response where
  resp : Word
  outcome : CmdOutcome
  deriving DecidableEq, Repr

/-- An interaction of the host with the lane: the two rows of R222. -/
inductive HostInput where
  /-- A command byte and its operand (30_encoding.md R70). -/
  | command (cmd : Byte) (opd : Word)
  /-- The reset signal (70_reset_and_hazards.md R230). -/
  | reset
  deriving DecidableEq, Repr

/-- The state of one lane. DONE, STATUS and the polarity are not stored (10_state.md R27, R32, R35). -/
structure State where
  /-- STATE, the generator state (R21). -/
  genState : Word
  /-- VSEL, the variant id of the latest successful SEED (R22). -/
  vsel : BitVec 2
  /-- SEEDED (R23). -/
  seeded : Bool
  /-- DIFF, the running count of differing bits (R24). -/
  diff : Word
  /-- CNT, the number of bytes scored (R26). -/
  cnt : Word
  /-- L, the chunk length in bits (R25). -/
  len : Word
  /-- ERR, the sticky error flag (R28). -/
  err : Bool
  /-- ERRCODE, the code of the first error (R29). -/
  errcode : BitVec 4
  /-- The response to the last command served; none when no command has been served since reset. DESIGN CHOICE, safe,
  log entry 3: the spec calls it an interface value (R20). -/
  response : Option Response
  /-- The host's interactions not served yet, in the order issued. DESIGN CHOICE, safe, log entry 1. -/
  inputs : List HostInput
  deriving DecidableEq, Repr

/-- The reasons a step could stop the block. It has no constructor: "an error does not stop the block" (60_exceptions.md
R210), there is no trap (R211), and the spec calls no behaviour undefined (93_implementation_defined.md). DEDUCED, log
entry 11; unsafe if a real block can hang. -/
inductive Fault : Type
  deriving DecidableEq, Repr

/-- The reasons the model could give no meaning. -/
inductive Refusal where
  /-- Raised by an arm of `exec` for an instruction that has no meaning yet (safe). No arm raises it in this model. -/
  | notModelled (mnemonic : String)
  deriving DecidableEq, Repr

/-- What one step answers. -/
abbrev StepResult := Host.Outcome State Fault Refusal

/-- The lane right after reset (10_state.md R39, 70_reset_and_hazards.md R230, R231): every register at its stated value,
no response, nothing issued by the host. -/
def State.reset : State where
  genState := 0#32
  vsel := 0#2
  seeded := false
  diff := 0#32
  cnt := 0#32
  len := Config.resetLength
  err := false
  errcode := 0#4
  response := none
  inputs := []

end Sys2Proof.Machine
end

