-- ==== Sys2Proof/Machine/Flags.lean ====
section
/-! DEFINITION. The values computed from the scorecard and the flags: DONE, POL, MATCH, the flags byte of RDFLAGS and the
status word of RDSTAT. Scorecard arithmetic is exact on naturals (41_scorecard.md R130). -/

namespace Sys2Proof.Machine

/-- DONE: a whole chunk has been scored (10_state.md R27). -/
def State.done (s : State) : Bool := s.cnt.toNat == s.len.toNat / 8

/-- L - DIFF, the number of agreeing bits (41_scorecard.md R124). DESIGN CHOICE, safe, log entry 6: natural subtraction,
which differs from the exact difference only where DIFF > L, in no reachable state (10_state.md R41). -/
def zerosOf (l d : Nat) : Nat := l - d

/-- POL(L, diff) (00_scope.md R17): 0 if the agreeing bits are at least the differing bits, else 1. -/
def pol (l d : Nat) : BitVec 1 := if d ≤ zerosOf l d then 0#1 else 1#1

/-- MATCH(L, diff) (R17). -/
def matchOf (l d : Nat) : Nat := max (zerosOf l d) d

/-- The polarity of the scorecard, recomputed when read (10_state.md R35). -/
def State.polarity (s : State) : BitVec 1 := pol s.len.toNat s.diff.toNat

/-- The frame flags byte: bits 1:0 the variant, bit 2 the polarity, bits 7:3 zero (41_scorecard.md R127). -/
def flagsByte (p : BitVec 1) (v : BitVec 2) : Byte := 0#5 ++ p ++ v

/-- STATUS (10_state.md R32, 43_control.md R173): bit 0 SEEDED, bit 1 DONE, bit 2 ERR, bit 3 zero, bits 7:4 ERRCODE. -/
def State.statusWord (s : State) : Word :=
  (s.errcode ++ 0#1 ++ BitVec.ofBool s.err ++ BitVec.ofBool s.done ++ BitVec.ofBool s.seeded).setWidth 32

end Sys2Proof.Machine
end

