-- ==== Sys2Proof/Machine/Tables.lean ====
section
/-! DEFINITION. The two read-only tables (10_state.md R30, R31). -/

namespace Sys2Proof.Machine

/-- OFFSET, the dimension-offset table (R30); variant id 3 has no row. The pairing is the spec's own decision D5. -/
def offset (v : BitVec 2) : Option Word :=
  match v.toNat with
  | 0 => some 0x00000000#32
  | 1 => some 0x55555555#32
  | 2 => some 0xAAAAAAAA#32
  | _ => none

/-- One bit of a byte as a number. -/
def bitCount (b : Byte) (i : Nat) : BitVec 4 := (BitVec.ofBool (b.getLsbD i)).setWidth 4

/-- POPCNT, the population-count table: entry `b`, 4 bits wide, is the number of 1 bits of `b` (R31). -/
def popcnt (b : Byte) : BitVec 4 :=
  bitCount b 0 + bitCount b 1 + bitCount b 2 + bitCount b 3
    + bitCount b 4 + bitCount b 5 + bitCount b 6 + bitCount b 7

end Sys2Proof.Machine
end

