-- ==== Sys2Proof/Machine/Ops.lean ====
section
/-! DEFINITION. The operations the meanings share: the generator's arithmetic and step, answering the host, raising an
error, the reset event, and the host's command port. -/

namespace Sys2Proof.Machine

/-- XS, one xorshift step on the 32-bit state (00_scope.md R17). -/
def xs (s : Word) : Word :=
  let t1 := s ^^^ (s <<< 13)
  let t2 := t1 ^^^ (t1 >>> 17)
  t2 ^^^ (t2 <<< 5)

/-- NORM: 0 is replaced by 1 (R17). -/
def normZero (x : Word) : Word := if x = 0#32 then 1#32 else x

/-- STEP, the state part: the generator advances by one xorshift step (40_keystream.md R102). -/
def State.advance (s : State) : State := { s with genState := xs s.genState }

/-- STEP, the byte part: the low 8 bits of the UPDATED state (R102). -/
def State.nextByte (s : State) : Byte := lowByte (xs s.genState)

/-- The command completes with outcome OK and a response word (00_scope.md R16, 30_encoding.md R74). -/
def State.respond (s : State) (v : Word) : State :=
  { s with response := some ⟨v, .ok⟩ }

/-- Raising an error, the block's exception (60_exceptions.md R210): the response is 0, the outcome is the error, ERR is
set, and ERRCODE takes the code only if ERR was clear. Nothing else changes. There is no handler and no return (R211,
R212). -/
def State.raise (s : State) (e : ErrCode) : State :=
  { s with
    err := true
    errcode := if s.err then s.errcode else e.code
    response := some ⟨0#32, .error e⟩ }

/-- A command ends with outcome OK. -/
def reply (v : Word) (s : State) : StepResult := .next (s.respond v)

/-- A command ends with an error; the block accepts the next command (R210). -/
def fail (e : ErrCode) (s : State) : StepResult := .next (s.raise e)

/-- The scorecard cleared (41_scorecard.md R120, R121). -/
def State.clearScore (s : State) : State := { s with diff := 0#32, cnt := 0#32 }

/-- The reset event: every register to 10_state.md R39, all at once, and nothing returned (70_reset_and_hazards.md R230,
60_exceptions.md R222). What the host has issued after the reset stays issued (DESIGN CHOICE, safe, log entry 4). -/
def State.applyReset (s : State) : State := { State.reset with inputs := s.inputs }

/-- The state with the host's first waiting interaction taken away. -/
def State.withInputs (s : State) (rest : List HostInput) : State := { s with inputs := rest }

/-- The host presents a command as the next to be served. -/
def State.present (s : State) (cmd : Byte) (opd : Word) : State :=
  s.withInputs (.command cmd opd :: s.inputs)

end Sys2Proof.Machine
end

