-- ==== Sys2Proof/Machine/Control.lean ====
section
/-! DEFINITION. The control and status commands NOP, RDSTATE, RDSTAT (43_control.md). -/

namespace Sys2Proof.Machine

/-- NOP (R170). -/
def execNop (s : State) : StepResult := reply 0#32 s

/-- RDSTATE (R172): works before the first SEED too, and does not step the generator. -/
def execRdstate (s : State) : StepResult := reply s.genState s

/-- RDSTAT (R173): the status word; reading clears nothing. -/
def execRdstat (s : State) : StepResult := reply s.statusWord s

end Sys2Proof.Machine
end

