-- ==== Sys2Proof/Machine/Keystream.lean ====
section
/-! DEFINITION. The keystream generator: SEED, GEN (40_keystream.md R100, R103), and the keystream function of R104. -/

namespace Sys2Proof.Machine

/-- SEED (R100). A variant id with no row in OFFSET raises BAD_VARIANT and changes nothing (R203). -/
def execSeed (v : BitVec 2) (value : Word) (s : State) : StepResult :=
  match offset v with
  | none => fail .badVariant s
  | some o =>
    reply (normZero (value + o))
      { s with genState := normZero (value + o), vsel := v, seeded := true }

/-- GEN (R103): the next keystream byte. -/
def execGen (s : State) : StepResult :=
  if s.seeded then reply (zext32 s.nextByte) s.advance
  else fail .unseeded s

/-- S_i of R104, from the seeded state S_0. -/
def keystreamState (s0 : Word) : Nat → Word
  | 0 => s0
  | n + 1 => xs (keystreamState s0 n)

/-- KS of R104: keystream byte `i` after a SEED that left the state `s0`. -/
def keystreamByte (s0 : Word) (i : Nat) : Byte := lowByte (keystreamState s0 (i + 1))

end Sys2Proof.Machine
end

