-- ==== Sys2Proof/Machine/Scorecard.lean ====
section
/-! DEFINITION. The XOR-popcount scorecard: CFG, SCLR, SCORE and the reads of its registers and results
(41_scorecard.md). -/

namespace Sys2Proof.Machine

/-- CFG accepts the non-zero multiples of 8 (R120, R208). -/
def legalLength (bits : Word) : Bool := decide (bits ≠ 0#32 ∧ bits.toNat % 8 = 0)

/-- CFG (R120). -/
def execCfg (bits : Word) (s : State) : StepResult :=
  if legalLength bits then reply 0#32 { s.clearScore with len := bits }
  else fail .badLength s

/-- SCLR (R121). -/
def execSclr (s : State) : StepResult := reply 0#32 s.clearScore

/-- Counting one raw XOR byte (R122). DESIGN CHOICE, safe, log entry 6: the registers are 32 bits wide, so the sums wrap
where R41 does not hold, in no reachable state (R130). -/
def State.countByte (s : State) (x : Byte) : State :=
  { s with diff := s.diff + (popcnt x).setWidth 32, cnt := s.cnt + 1#32 }

/-- SCORE (R122): UNSEEDED is checked before SCORE_OVERRUN (60_exceptions.md R209). -/
def execScore (c : Byte) (s : State) : StepResult :=
  if !s.seeded then fail .unseeded s
  else if s.done then fail .scoreOverrun s
  else reply (zext32 (c ^^^ s.nextByte)) (s.advance.countByte (c ^^^ s.nextByte))

/-- A read that is defined for a whole chunk only (60_exceptions.md R207). -/
def readResult (v : Word) (s : State) : StepResult :=
  if s.done then reply v s else fail .notReady s

/-- RDDIFF (R123). -/
def execRddiff (s : State) : StepResult := readResult s.diff s

/-- RDZEROS (R124). -/
def execRdzeros (s : State) : StepResult :=
  readResult (BitVec.ofNat 32 (zerosOf s.len.toNat s.diff.toNat)) s

/-- RDMATCH (R125). -/
def execRdmatch (s : State) : StepResult :=
  readResult (BitVec.ofNat 32 (matchOf s.len.toNat s.diff.toNat)) s

/-- RDFLAGS (R127): the polarity of the score with the CURRENT variant (70_reset_and_hazards.md R242). -/
def execRdflags (s : State) : StepResult :=
  readResult (zext32 (flagsByte s.polarity s.vsel)) s

/-- RDCNT (R128). -/
def execRdcnt (s : State) : StepResult := reply s.cnt s

/-- RDLEN (R129). -/
def execRdlen (s : State) : StepResult := reply s.len s

end Sys2Proof.Machine
end

