-- ==== Sys2Proof/Machine/Transform.lean ====
section
/-! DEFINITION. The residual transform XFORM (42_transform.md). -/

namespace Sys2Proof.Machine

/-- XFORM (R160): the byte XOR the next keystream byte, complemented when P is 1. It leaves the scorecard alone. -/
def execXform (p : BitVec 1) (b : Byte) (s : State) : StepResult :=
  if s.seeded then reply (zext32 (b ^^^ s.nextByte ^^^ polarityMask p)) s.advance
  else fail .unseeded s

end Sys2Proof.Machine
end

