-- ==== Sys2Proof/Machine/Dispatch.lean ====
section
/-! DEFINITION. One arm per command: the meaning it calls. -/

namespace Sys2Proof.Machine

def exec (i : Instr) (s : State) : Host.Outcome State Fault Refusal :=
  match i with
  | .nop => Sys2Proof.Machine.execNop s
  | .seed v value => Sys2Proof.Machine.execSeed v value s
  | .gen => Sys2Proof.Machine.execGen s
  | .sclr => Sys2Proof.Machine.execSclr s
  | .score c => Sys2Proof.Machine.execScore c s
  | .xform p b => Sys2Proof.Machine.execXform p b s
  | .rddiff => Sys2Proof.Machine.execRddiff s
  | .rdzeros => Sys2Proof.Machine.execRdzeros s
  | .rdmatch => Sys2Proof.Machine.execRdmatch s
  | .rdflags => Sys2Proof.Machine.execRdflags s
  | .rdstate => Sys2Proof.Machine.execRdstate s
  | .rdstat => Sys2Proof.Machine.execRdstat s
  | .cfg bits => Sys2Proof.Machine.execCfg bits s
  | .rdcnt => Sys2Proof.Machine.execRdcnt s
  | .rdlen => Sys2Proof.Machine.execRdlen s

end Sys2Proof.Machine
end

