-- ==== Sys2Proof/Machine/Serve.lean ====
section
/-! DEFINITION. How the block serves the host's interactions, one at a time and in order (20_memory.md R60,
60_exceptions.md R222). -/

namespace Sys2Proof.Machine

/-- One command: decoded, then executed; a decoding error is raised like any other error (30_encoding.md R76,
60_exceptions.md R209, R210). -/
def serveCommand (cmd : Byte) (opd : Word) (s : State) : StepResult :=
  match decode cmd opd with
  | .ok i => exec i s
  | .error e => fail e s

/-- One interaction of R222. -/
def serveInput (x : HostInput) (s : State) : StepResult :=
  match x with
  | .command cmd opd => serveCommand cmd opd s
  | .reset => .next s.applyReset

/-- The block with nothing to serve waits and holds its registers (60_exceptions.md R220, 70_reset_and_hazards.md R231).
DEDUCED, safe, log entry 2. -/
def waitForHost (s : State) : StepResult := .next s

/-- The first interaction waiting is served; each is complete before the next is taken (R56, R60). -/
def serveNext (s : State) : StepResult :=
  match s.inputs with
  | [] => waitForHost s
  | x :: rest => serveInput x (s.withInputs rest)

end Sys2Proof.Machine
end

