-- ==== Sys2Proof/Machine/Step.lean ====
section
/-! DEFINITION. One step of the block, and the placing of one command where the next step takes it. -/

namespace Sys2Proof.Machine

/-- One step: one interaction of the host served, or none if none waits. -/
def step (s : State) : Host.Outcome State Fault Refusal := serveNext s

/-- The state with the command of a table word presented by the host as its next interaction (DESIGN CHOICE, log entries 1 and 9). -/
def State.withFetchWord (s : State) (nbits w : Nat) : State :=
  s.present (tableCommand nbits w).1 (tableCommand nbits w).2

end Sys2Proof.Machine
end

