-- ==== Sys2Proof/Machine/Lanes.lean ====
section
/-! DEFINITION. LANES blocks side by side (00_scope.md R14, 60_exceptions.md R218). Each lane is one complete NPKS with a
state of its own; the lanes share only the tables, which are constants. -/

namespace Sys2Proof.Machine

/-- A bank of `n` lanes (R14). -/
abbrev Lanes (n : Nat) := Vector State n

/-- Every lane at its reset values (R218). -/
def lanesReset (n : Nat) : Lanes n := Vector.replicate n State.reset

/-- Lane `k` takes one step; no other lane is touched (R61). -/
def stepLane {n : Nat} (k : Fin n) (ls : Lanes n) : Host.Outcome (Lanes n) Fault Refusal :=
  match step ls[k] with
  | .next t => .next (ls.set k t)
  | .fault r => .fault r
  | .refused r => .refused r

/-- The lanes take steps in the order of a schedule. -/
def runLanes {n : Nat} : List (Fin n) → Lanes n → Host.Outcome (Lanes n) Fault Refusal
  | [], ls => .next ls
  | k :: ks, ls =>
    match stepLane k ls with
    | .next ms => runLanes ks ms
    | .fault r => .fault r
    | .refused r => .refused r

end Sys2Proof.Machine
end

