-- ==== Sys2Proof/Machine/Session.lean ====
section
/-! DEFINITION. The host's side of the interface: what a sequence of commands does and returns, the pseudo-commands of
30_encoding.md R80, and the ratio comparison of 00_scope.md R18. None of it is part of the block. -/

namespace Sys2Proof.Machine

/-- The commands of a list executed one after the other (20_memory.md R60), with the responses they return in order; none
if one of them does not answer a next state. -/
def session : List Instr → State → Option (State × List Response)
  | [], s => some (s, [])
  | i :: is, s =>
    match exec i s with
    | .next t => (session is t).map fun r => (r.1, t.response.toList ++ r.2)
    | .fault _ => none
    | .refused _ => none

/-- The host's command for an instruction, in its encoding (30_encoding.md R79). -/
def HostInput.ofInstr (i : Instr) : HostInput := .command (commandByte i) (operandWord i)

/-- CANDIDATE (R80): one candidate evaluated, a SEED, a SCLR and one SCORE per chunk byte. -/
def candidate (v : BitVec 2) (x : Word) (c : List Byte) : List Instr :=
  .seed v x :: .sclr :: c.map .score

/-- RESIDUAL (R80): one SEED and one XFORM per chunk byte. -/
def residual (p : BitVec 1) (v : BitVec 2) (x : Word) (c : List Byte) : List Instr :=
  .seed v x :: c.map (.xform p)

/-- RECOVER (R80): the same expansion over the residual bytes. -/
def recover (p : BitVec 1) (v : BitVec 2) (x : Word) (r : List Byte) : List Instr :=
  .seed v x :: r.map (.xform p)

/-- The host's comparison of the agreement ratio with a / b, in exact integers (R18). -/
def ratioAtLeast (matchBits len a b : Nat) : Bool := decide (a * len ≤ matchBits * b)

end Sys2Proof.Machine
end

