-- ==== Sys2Proof/WellFormed.lean ====
section
/-! DEFINITION. Which commands are legal as written: those whose command byte is one of the 18 legal bytes of
30_encoding.md R77. The operand types leave one check, the variant id of SEED. -/

namespace Sys2Proof

/-- A variant id names a keystream variant exactly when it is below K (60_exceptions.md R203). -/
def variantNamed (v : BitVec 2) : Bool := decide (v.toNat < Config.variantCount)

/-- The command is well formed. SEED 3 is not: it can be sent, and raises BAD_VARIANT (R203). -/
def Instr.wf : Instr → Bool
  | .nop => true
  | .seed v _ => variantNamed v
  | .gen => true
  | .sclr => true
  | .score _ => true
  | .xform _ _ => true
  | .rddiff => true
  | .rdzeros => true
  | .rdmatch => true
  | .rdflags => true
  | .rdstate => true
  | .rdstat => true
  | .cfg _ => true
  | .rdcnt => true
  | .rdlen => true

end Sys2Proof
end

