-- ==== Sys2Proof/Safety.lean ====
section
/-! DEFINITION. The terms claims use: the invariants the spec states, the spec's own formulas on naturals written out a
second time (so that a statement holds the model against the rule and not against itself), and names for what a command
may change. -/

namespace Sys2Proof.Machine

/-- R40: a seeded generator is not in the all-zero state. -/
abbrev State.SeededNonzero (s : State) : Prop := s.seeded = true → s.genState ≠ 0#32

/-- R22: VSEL names a variant. -/
abbrev State.VariantLegal (s : State) : Prop := s.vsel ≠ 3#2

/-- R25: L is a non-zero multiple of 8. -/
abbrev State.LengthLegal (s : State) : Prop := s.len ≠ 0#32 ∧ s.len.toNat % 8 = 0

/-- R41: DIFF ≤ 8 * CNT ≤ L. -/
abbrev State.CountsBounded (s : State) : Prop :=
  s.diff.toNat ≤ 8 * s.cnt.toNat ∧ 8 * s.cnt.toNat ≤ s.len.toNat

/-- R29, R200: ERRCODE is 0 exactly while ERR is clear, and never one of the reserved codes 8..15. -/
abbrev State.ErrorRecordLegal (s : State) : Prop :=
  (s.err = false ↔ s.errcode = 0#4) ∧ s.errcode.toNat ≤ 7

/-- R23, R39, R232: before the first SEED the generator state is its reset value. -/
abbrev State.UnseededZero (s : State) : Prop := s.seeded = false → s.genState = 0#32

/-- The invariant of one lane. -/
abbrev State.Inv (s : State) : Prop :=
  s.SeededNonzero ∧ s.VariantLegal ∧ s.LengthLegal ∧ s.CountsBounded ∧ s.ErrorRecordLegal ∧ s.UnseededZero

/-- The commands that step the generator (40_keystream.md R102). -/
def stepsGenerator : Instr → Bool
  | .gen => true
  | .score _ => true
  | .xform _ _ => true
  | .nop => false
  | .seed _ _ => false
  | .sclr => false
  | .rddiff => false
  | .rdzeros => false
  | .rdmatch => false
  | .rdflags => false
  | .rdstate => false
  | .rdstat => false
  | .cfg _ => false
  | .rdcnt => false
  | .rdlen => false

/-- The read commands (20_memory.md R57). -/
def isRead : Instr → Bool
  | .rddiff => true
  | .rdzeros => true
  | .rdmatch => true
  | .rdflags => true
  | .rdstate => true
  | .rdstat => true
  | .rdcnt => true
  | .rdlen => true
  | .nop => false
  | .seed _ _ => false
  | .gen => false
  | .sclr => false
  | .score _ => false
  | .xform _ _ => false
  | .cfg _ => false

/-- The outcome the host reads after a step; none if nothing has been served. -/
def State.outcome (s : State) : Option CmdOutcome := s.response.map Response.outcome

/-- The response word the host reads after a step. -/
def State.resp (s : State) : Option Word := s.response.map Response.resp

end Sys2Proof.Machine

namespace Sys2Proof.Spec

open Sys2Proof.Machine

/-- XS of 00_scope.md R17 on naturals, with the masks written as remainders. -/
def xorshift (s : Nat) : Nat :=
  let t1 := s ^^^ ((s <<< 13) % 2 ^ 32)
  let t2 := t1 ^^^ (t1 >>> 17)
  t2 ^^^ ((t2 <<< 5) % 2 ^ 32)

/-- The OFFSET column of 10_state.md R30 as naturals, by variant id. -/
def offsets : List Nat := [0x00000000, 0x55555555, 0xAAAAAAAA]

/-- The state SEED leaves, on naturals (40_keystream.md R100): the sum modulo 2^32, with 0 replaced by 1. -/
def seedState (off value : Nat) : Nat :=
  if (value + off) % 2 ^ 32 = 0 then 1 else (value + off) % 2 ^ 32

/-- The number of 1 bits of a byte, counted over its bit positions (R15). -/
def popcount (b : Byte) : Nat := ((List.range 8).filter fun i => b.getLsbD i).length

/-- ERRCODE's number for an error, the code column of 60_exceptions.md R200. -/
def errorNumber : ErrCode → Nat
  | .illegalCmd => 1
  | .badVariant => 2
  | .reservedOperand => 3
  | .unseeded => 4
  | .scoreOverrun => 5
  | .notReady => 6
  | .badLength => 7

/-- The outcome of a command by the checks of 30_encoding.md R76 and then the command's own, in the order of
60_exceptions.md R209, on naturals. -/
def outcome (s : State) (cmd opd : Nat) : CmdOutcome :=
  let op := cmd / 8
  let p := cmd / 4 % 2
  let v := cmd % 4
  if 15 ≤ op then .error .illegalCmd
  else if op ≠ 1 ∧ v ≠ 0 then .error .illegalCmd
  else if op ≠ 5 ∧ p ≠ 0 then .error .illegalCmd
  else if op = 1 ∧ v = 3 then .error .badVariant
  else if (op = 4 ∨ op = 5) ∧ opd / 256 ≠ 0 then .error .reservedOperand
  else if op ≠ 1 ∧ op ≠ 12 ∧ op ≠ 4 ∧ op ≠ 5 ∧ opd ≠ 0 then .error .reservedOperand
  else if (op = 2 ∨ op = 4 ∨ op = 5) ∧ s.seeded = false then .error .unseeded
  else if op = 4 ∧ s.cnt.toNat = s.len.toNat / 8 then .error .scoreOverrun
  else if 6 ≤ op ∧ op ≤ 9 ∧ s.cnt.toNat ≠ s.len.toNat / 8 then .error .notReady
  else if op = 12 ∧ (opd = 0 ∨ opd % 8 ≠ 0) then .error .badLength
  else .ok

/-- The 18 legal command bytes (30_encoding.md R75, R77). -/
def legalBytes : List Byte :=
  [0x00, 0x08, 0x09, 0x0A, 0x10, 0x18, 0x20, 0x28, 0x2C, 0x30, 0x38, 0x40, 0x48, 0x50, 0x58, 0x60, 0x68, 0x70]

/-- Whether a command raises ILLEGAL_CMD when it is decoded. -/
def illegal (cmd : Byte) (opd : Word) : Bool :=
  match decode cmd opd with
  | .error .illegalCmd => true
  | _ => false

/-- The 256 command bytes. -/
def commandBytes : List Byte := (List.range 256).map (BitVec.ofNat 8)

/-- What a form-NONE command with opcode byte `op * 8` decodes to (R72, R75, R76): the V and P fields must be 0 and then
the operand must be 0. -/
def decodeNone (i : Instr) (cmd : Byte) (opd : Word) : Except ErrCode Instr :=
  if cmd.toNat % 8 ≠ 0 then .error .illegalCmd
  else if opd.toNat ≠ 0 then .error .reservedOperand
  else .ok i

/-- What R210 leaves of a state when an error is raised, written out. -/
def raised (s : State) (e : ErrCode) : State :=
  { s with
    err := true
    errcode := if s.err = true then s.errcode else BitVec.ofNat 4 (errorNumber e)
    response := some ⟨0#32, .error e⟩ }

/-- The number of differing bits of a chunk and a keystream that begins at index `i` (41_scorecard.md R126). -/
def differingBits (s0 : Word) : Nat → List Byte → Nat
  | _, [] => 0
  | i, c :: cs => popcount (c ^^^ keystreamByte s0 i) + differingBits s0 (i + 1) cs

/-- The bytes of a chunk XOR a keystream that begins at index `i`, XOR a mask (42_transform.md R160, R162). -/
def maskedBytes (m : Byte) (s0 : Word) : Nat → List Byte → List Byte
  | _, [] => []
  | i, c :: cs => (c ^^^ keystreamByte s0 i ^^^ m) :: maskedBytes m s0 (i + 1) cs

/-- The OK responses of a list of result bytes, zero-extended (30_encoding.md R74). -/
def okBytes (bs : List Byte) : List Response := bs.map fun b => ⟨BitVec.ofNat 32 b.toNat, .ok⟩

/-- The number of generator steps in a list of commands with the responses they returned (40_keystream.md R102, R104):
the stepping commands that did not raise an error. -/
def stepsTaken : List Instr → List Response → Nat
  | i :: is, r :: rs => (if stepsGenerator i ∧ r.outcome = .ok then 1 else 0) + stepsTaken is rs
  | _, _ => 0

/-- A command that is not SEED. -/
def notSeed : Instr → Bool
  | .nop => true
  | .seed _ _ => false
  | .gen => true
  | .sclr => true
  | .score _ => true
  | .xform _ _ => true
  | .rddiff => true
  | .rdzeros => true
  | .rdmatch => true
  | .rdflags => true
  | .rdstate => true
  | .rdstat => true
  | .cfg _ => true
  | .rdcnt => true
  | .rdlen => true

/-- The commands whose response depends on nothing but the generator state (40_keystream.md R103, 42_transform.md R160,
43_control.md R170, R172). -/
def generatorOnly : Instr → Bool
  | .nop => true
  | .seed _ _ => false
  | .gen => true
  | .sclr => false
  | .score _ => false
  | .xform _ _ => true
  | .rddiff => false
  | .rdzeros => false
  | .rdmatch => false
  | .rdflags => false
  | .rdstate => true
  | .rdstat => false
  | .cfg _ => false
  | .rdcnt => false
  | .rdlen => false

/-- The number of 0 bits of a list of bytes. -/
def zeroBits (bs : List Byte) : Nat := (bs.map fun b => 8 - popcount b).sum

end Sys2Proof.Spec
end

