-- ==== Sys2Proof/Certificates/Slice0/Obligations.lean ====
section
/-! DEFINITION. The statements for the provers. Formulas of the rules are those of Sys2Proof.Spec, written on naturals
beside the model's own definitions. -/

open Sys2Proof Sys2Proof.Machine

/-! Decoding and encoding. -/

/-- 30_encoding.md R75, R79: words written out from the opcode map, one of each operand form and field, decode to their
commands, and a reserved opcode, an unused field and an unused operand bit are rejected by name. -/
def Obligations.OpcodeMapWordsDecode : Prop :=
  decode 0b00001010 0x2A = .ok (.seed 2 0x2A) ∧
  decode 0b00010000 0 = .ok .gen ∧
  decode 0b00100000 0x9B = .ok (.score 0x9B) ∧
  decode 0b00101100 0x42 = .ok (.xform 1 0x42) ∧
  decode 0b01001000 0 = .ok .rdflags ∧
  decode 0b01011000 0 = .ok .rdstat ∧
  decode 0b01100000 0x20 = .ok (.cfg 0x20) ∧
  decode 0b01111000 0 = .error .illegalCmd ∧
  decode 0b00010001 0 = .error .illegalCmd ∧
  decode 0b00100000 0x100 = .error .reservedOperand

/-- R75, R77, R79: every command, with every operand, is what its encoding decodes to. SEED 3 is among them: that the
decoder reads 0x0B as SEED 3, and leaves BAD_VARIANT to the meaning of SEED where R76 lists the check in the decoder, is
log entry 5 (DEDUCED, from R77). -/
def Obligations.DecodeOfEncodeIsTheCommand : Prop :=
  ∀ i : Instr, decode (encode i).1 (encode i).2 = .ok i

/-- R76: a command byte and operand that decode to a command are that command's encoding, so no bit of either is
dropped. -/
def Obligations.EncodeOfDecodeIsTheWord : Prop :=
  ∀ (cmd : Byte) (opd : Word) (i : Instr), decode cmd opd = .ok i → encode i = (cmd, opd)

/-- R77: the bytes that raise ILLEGAL_CMD are those the rule lists, whatever the operand; 237 in all, 136 of them with a
reserved opcode and 101 with an opcode of the map; the 18 legal bytes decode as some command under some operand; and 0x0B
decodes as SEED and raises BAD_VARIANT. That the decoder reads it as SEED 3 and the meaning of SEED raises the error,
where R76 lists the check in the decoder, is log entry 5 (DEDUCED, from R77). -/
def Obligations.IllegalCommandBytes : Prop :=
  (∀ (cmd : Byte) (opd : Word),
    Spec.illegal cmd opd = true ↔
      15 ≤ cmd.toNat / 8 ∨ (cmd.toNat / 8 ≠ 1 ∧ cmd.toNat % 4 ≠ 0) ∨ (cmd.toNat / 8 ≠ 5 ∧ cmd.toNat / 4 % 2 = 1)) ∧
  (∀ opd : Word,
    (Spec.commandBytes.filter fun b => Spec.illegal b opd).length = 237 ∧
    (Spec.commandBytes.filter fun b => Spec.illegal b opd && decide (b.toNat / 8 ≤ 14)).length = 101 ∧
    (Spec.commandBytes.filter fun b => Spec.illegal b opd && decide (15 ≤ b.toNat / 8)).length = 136) ∧
  (∀ b : Byte, b ∈ Spec.legalBytes ↔ ∃ opd i, decode b opd = .ok i ∧ i.wf = true) ∧
  Spec.legalBytes.length = 18 ∧
  (∀ (opd : Word) (s : State),
    decode 0x0B opd = .ok (.seed 3 opd) ∧ exec (.seed 3 opd) s = .next (Spec.raised s .badVariant))

/-! Steps, errors, reset. -/

/-- 30_encoding.md R76, 20_memory.md R60, 60_exceptions.md R222: the step serves the first interaction waiting, and leaves
the rest waiting. For a command it runs exactly the decoded command, or raises the decoding error as R210 says; for a
reset it applies the reset. How the interactions wait, and that those behind a reset stay waiting, is the model's choice
(log entries 1 and 4). -/
def Obligations.StepServesTheFirstInteraction : Prop :=
  (∀ (s : State) (cmd : Byte) (opd : Word) (rest : List HostInput), s.inputs = .command cmd opd :: rest →
    step s = serveCommand cmd opd { s with inputs := rest } ∧
    (∀ i, decode cmd opd = .ok i → step s = exec i { s with inputs := rest }) ∧
    (∀ e, decode cmd opd = .error e → step s = .next (Spec.raised { s with inputs := rest } e))) ∧
  (∀ (s : State) (rest : List HostInput), s.inputs = .reset :: rest →
    step s = serveInput .reset { s with inputs := rest })

/-- 60_exceptions.md R202 to R210: every command, whatever its bytes and the state, answers a next state whose outcome is
OK or exactly one error, the first in the order of R209; on an error the response is 0 and only ERR and ERRCODE change,
ERRCODE keeping the first code; with OK, ERR and ERRCODE keep their values. -/
def Obligations.CommandOutcomeByPriority : Prop :=
  ∀ (s : State) (cmd : Byte) (opd : Word),
    ∃ t r, serveCommand cmd opd s = .next t ∧ t.response = some r ∧
      r.outcome = Spec.outcome s cmd.toNat opd.toNat ∧
      (∀ e, r.outcome = .error e → t = Spec.raised s e) ∧
      (r.outcome = .ok → t.err = s.err ∧ t.errcode = s.errcode)

/-- R171, R210, R220: a step never stops the block, and takes one interaction of the host, whichever it is. That no step
stops is log entry 11 (DEDUCED, from R210 and R211); how the interactions wait, the step with none waiting, and that a
reset leaves the later ones waiting are the model's (log entries 1, 2 and 4). -/
def Obligations.EveryStepGoesOn : Prop :=
  ∀ s : State, ∃ t, step s = .next t ∧ t.inputs = s.inputs.tail

/-- R220, 70_reset_and_hazards.md R231: with nothing to serve, the block holds everything (log entry 2). -/
def Obligations.WaitingHoldsTheState : Prop :=
  ∀ s : State, s.inputs = [] → step s = .next s

/-- 70_reset_and_hazards.md R230, 10_state.md R39: the reset signal sets every register to its reset value, whatever the
state, and State.reset holds the same values. -/
def Obligations.ResetSetsEveryRegister : Prop :=
  (∀ s : State,
    ∃ t, serveInput .reset s = .next t ∧ t.genState.toNat = 0 ∧ t.vsel.toNat = 0 ∧ t.seeded = false ∧
      t.diff.toNat = 0 ∧ t.cnt.toNat = 0 ∧ t.len.toNat = 1536 ∧ t.err = false ∧ t.errcode.toNat = 0) ∧
  State.reset.genState.toNat = 0 ∧ State.reset.vsel.toNat = 0 ∧ State.reset.seeded = false ∧
    State.reset.diff.toNat = 0 ∧ State.reset.cnt.toNat = 0 ∧ State.reset.len.toNat = 1536 ∧
    State.reset.err = false ∧ State.reset.errcode.toNat = 0

/-- 70_reset_and_hazards.md R232: SEED 0, SCLR and CFG 1536 bring VSEL, DIFF and CNT, and L back to their reset values;
no command, whatever its bytes, brings SEEDED, ERR, a non-zero ERRCODE or (once seeded) STATE back to theirs. The premise
is the model's invariant. -/
def Obligations.OnlyResetRestoresTheRest : Prop :=
  (∀ (s : State) (x : Word), ∃ t, exec (.seed 0 x) s = .next t ∧ t.vsel = State.reset.vsel) ∧
  (∀ s : State, ∃ t, exec .sclr s = .next t ∧ t.diff = State.reset.diff ∧ t.cnt = State.reset.cnt) ∧
  (∀ s : State, ∃ t, exec (.cfg 1536) s = .next t ∧ t.len = State.reset.len) ∧
  (∀ (s : State) (cmd : Byte) (opd : Word), s.Inv →
    ∃ t, serveCommand cmd opd s = .next t ∧
      (s.seeded = true → t.seeded = true ∧ t.genState ≠ State.reset.genState) ∧
      (s.err = true → t.err = true) ∧
      (s.errcode ≠ State.reset.errcode → t.errcode = s.errcode))

/-- 10_state.md R28: no command but RDSTAT reads ERR or ERRCODE. Two states that differ in nothing else go to states that
differ in nothing else, the response included. -/
def Obligations.ErrorRecordReadOnlyByRdstat : Prop :=
  ∀ (i : Instr) (s : State) (b : Bool) (c : BitVec 4), i ≠ .rdstat →
    ∃ t u, exec i s = .next t ∧ exec i { s with err := b, errcode := c } = .next u ∧
      u = { t with err := u.err, errcode := u.errcode }

/-! One statement per command: what it decodes from, its result and frame, its errors. Each equation gives the whole next
state, so every register it does not name is unchanged. -/

/-- 43_control.md R170. -/
def Obligations.NopChangesNothing : Prop :=
  (∀ (cmd : Byte) (opd : Word), cmd.toNat / 8 = 0 → decode cmd opd = Spec.decodeNone .nop cmd opd) ∧
  (∀ s : State, exec .nop s = .next { s with response := some ⟨0, .ok⟩ })

/-- 40_keystream.md R100, 60_exceptions.md R203: SEED loads the normalised sum, records the variant and answers the new
STATE; variant id 3 raises BAD_VARIANT. The clause on decoding reads 0x0B as SEED 3, and the meaning of SEED raises the
error: that place of the check is log entry 5 (DEDUCED, from 30_encoding.md R77), where R76 lists it in the decoder. -/
def Obligations.SeedLoadsTheGenerator : Prop :=
  (∀ (cmd : Byte) (opd : Word), cmd.toNat / 8 = 1 →
    decode cmd opd =
      if cmd.toNat / 4 % 2 = 1 then .error .illegalCmd else .ok (.seed (BitVec.ofNat 2 (cmd.toNat % 4)) opd)) ∧
  (∀ (v : BitVec 2) (x : Word) (off : Nat) (s : State), Spec.offsets[v.toNat]? = some off →
    exec (.seed v x) s = .next
      { s with
        genState := BitVec.ofNat 32 (Spec.seedState off x.toNat)
        vsel := v
        seeded := true
        response := some ⟨BitVec.ofNat 32 (Spec.seedState off x.toNat), .ok⟩ }) ∧
  (∀ (x : Word) (s : State), exec (.seed 3 x) s = .next (Spec.raised s .badVariant))

/-- 40_keystream.md R103, R102: GEN steps the generator and answers the low byte of the updated state; before the first
SEED it raises UNSEEDED and does not step. -/
def Obligations.GenAnswersTheNextByte : Prop :=
  (∀ (cmd : Byte) (opd : Word), cmd.toNat / 8 = 2 → decode cmd opd = Spec.decodeNone .gen cmd opd) ∧
  (∀ s : State, s.seeded = true →
    exec .gen s = .next
      { s with
        genState := BitVec.ofNat 32 (Spec.xorshift s.genState.toNat)
        response := some ⟨BitVec.ofNat 32 (Spec.xorshift s.genState.toNat % 256), .ok⟩ }) ∧
  (∀ s : State, s.seeded = false → exec .gen s = .next (Spec.raised s .unseeded))

/-- 41_scorecard.md R121. -/
def Obligations.SclrClearsTheScorecard : Prop :=
  (∀ (cmd : Byte) (opd : Word), cmd.toNat / 8 = 3 → decode cmd opd = Spec.decodeNone .sclr cmd opd) ∧
  (∀ s : State, exec .sclr s = .next { s with diff := 0, cnt := 0, response := some ⟨0, .ok⟩ })

/-- 41_scorecard.md R122: SCORE steps the generator, answers the raw XOR byte, adds its 1 bits to DIFF and 1 to CNT;
UNSEEDED comes before SCORE_OVERRUN. The register sums are written modulo 2^32 for every state: where the invariant of
10_state.md R41 does not hold that is the model's choice (log entry 6), and where it holds ScoreArithmeticIsExact says
that they never wrap. -/
def Obligations.ScoreCountsTheDifferingBits : Prop :=
  (∀ (cmd : Byte) (opd : Word), cmd.toNat / 8 = 4 →
    decode cmd opd =
      if cmd.toNat % 8 ≠ 0 then .error .illegalCmd
      else if opd.toNat / 256 ≠ 0 then .error .reservedOperand
      else .ok (.score (BitVec.ofNat 8 opd.toNat))) ∧
  (∀ (c : Byte) (s : State), s.seeded = true → s.cnt.toNat ≠ s.len.toNat / 8 →
    exec (.score c) s = .next
      { s with
        genState := BitVec.ofNat 32 (Spec.xorshift s.genState.toNat)
        diff := BitVec.ofNat 32 (s.diff.toNat +
          Spec.popcount (c ^^^ BitVec.ofNat 8 (Spec.xorshift s.genState.toNat)))
        cnt := BitVec.ofNat 32 (s.cnt.toNat + 1)
        response := some ⟨BitVec.ofNat 32 (c.toNat ^^^ Spec.xorshift s.genState.toNat % 256), .ok⟩ }) ∧
  (∀ (c : Byte) (s : State), s.seeded = false → exec (.score c) s = .next (Spec.raised s .unseeded)) ∧
  (∀ (c : Byte) (s : State), s.seeded = true → s.cnt.toNat = s.len.toNat / 8 →
    exec (.score c) s = .next (Spec.raised s .scoreOverrun))

/-- 41_scorecard.md R130, 10_state.md R41: from a state of the invariant, a SCORE that completes counts exactly, within
L; RDZEROS answers the exact difference; and the polarity of RDFLAGS is the exact comparison. -/
def Obligations.ScoreArithmeticIsExact : Prop :=
  (∀ (c : Byte) (s : State), s.Inv → s.seeded = true → s.cnt.toNat ≠ s.len.toNat / 8 →
    ∃ t, exec (.score c) s = .next t ∧
      t.diff.toNat = s.diff.toNat + Spec.popcount (c ^^^ BitVec.ofNat 8 (Spec.xorshift s.genState.toNat)) ∧
      t.cnt.toNat = s.cnt.toNat + 1 ∧ t.diff.toNat ≤ 8 * t.cnt.toNat ∧ 8 * t.cnt.toNat ≤ s.len.toNat) ∧
  (∀ s : State, s.Inv → s.cnt.toNat = s.len.toNat / 8 →
    ∃ t w, exec .rdzeros s = .next t ∧ t.resp = some w ∧ w.toNat + s.diff.toNat = s.len.toNat) ∧
  (∀ s : State, s.Inv → s.cnt.toNat = s.len.toNat / 8 →
    ∃ t w, exec .rdflags s = .next t ∧ t.resp = some w ∧ (w.getLsbD 2 = true ↔ s.len.toNat < 2 * s.diff.toNat))

/-- 42_transform.md R160: XFORM answers the byte XOR the keystream byte, complemented when P is 1, and changes nothing but
the generator state. -/
def Obligations.XformAnswersTheMaskedXor : Prop :=
  (∀ (cmd : Byte) (opd : Word), cmd.toNat / 8 = 5 →
    decode cmd opd =
      if cmd.toNat % 4 ≠ 0 then .error .illegalCmd
      else if opd.toNat / 256 ≠ 0 then .error .reservedOperand
      else .ok (.xform (BitVec.ofNat 1 (cmd.toNat / 4 % 2)) (BitVec.ofNat 8 opd.toNat))) ∧
  (∀ (p : BitVec 1) (b : Byte) (s : State), s.seeded = true →
    exec (.xform p b) s = .next
      { s with
        genState := BitVec.ofNat 32 (Spec.xorshift s.genState.toNat)
        response := some
          ⟨BitVec.ofNat 32 (b.toNat ^^^ Spec.xorshift s.genState.toNat % 256 ^^^ (if p.toNat = 1 then 0xFF else 0)),
            .ok⟩ }) ∧
  (∀ (p : BitVec 1) (b : Byte) (s : State), s.seeded = false →
    exec (.xform p b) s = .next (Spec.raised s .unseeded))

/-- 41_scorecard.md R123. -/
def Obligations.RddiffReadsTheDifference : Prop :=
  (∀ (cmd : Byte) (opd : Word), cmd.toNat / 8 = 6 → decode cmd opd = Spec.decodeNone .rddiff cmd opd) ∧
  (∀ s : State, s.cnt.toNat = s.len.toNat / 8 →
    exec .rddiff s = .next { s with response := some ⟨s.diff, .ok⟩ }) ∧
  (∀ s : State, s.cnt.toNat ≠ s.len.toNat / 8 → exec .rddiff s = .next (Spec.raised s .notReady))

/-- 41_scorecard.md R124. The premise that DIFF is at most L is part of the invariant (10_state.md R41); where it fails
the model's value is its own (log entry 6). -/
def Obligations.RdzerosReadsTheAgreement : Prop :=
  (∀ (cmd : Byte) (opd : Word), cmd.toNat / 8 = 7 → decode cmd opd = Spec.decodeNone .rdzeros cmd opd) ∧
  (∀ s : State, s.CountsBounded → s.cnt.toNat = s.len.toNat / 8 →
    s.diff.toNat ≤ s.len.toNat ∧ exec .rdzeros s = .next { s with response := some ⟨s.len - s.diff, .ok⟩ }) ∧
  (∀ s : State, s.cnt.toNat ≠ s.len.toNat / 8 → exec .rdzeros s = .next (Spec.raised s .notReady))

/-- 41_scorecard.md R125: the larger of the two counts, which at a tie is L / 2. -/
def Obligations.RdmatchReadsTheLargerCount : Prop :=
  (∀ (cmd : Byte) (opd : Word), cmd.toNat / 8 = 8 → decode cmd opd = Spec.decodeNone .rdmatch cmd opd) ∧
  (∀ s : State, s.CountsBounded → s.cnt.toNat = s.len.toNat / 8 →
    exec .rdmatch s = .next
      { s with response := some ⟨if s.len.toNat < 2 * s.diff.toNat then s.diff else s.len - s.diff, .ok⟩ }) ∧
  (∀ s : State, s.cnt.toNat ≠ s.len.toNat / 8 → exec .rdmatch s = .next (Spec.raised s .notReady))

/-- 41_scorecard.md R127: bits 1:0 the variant, bit 2 the polarity, the rest 0; nothing but the response changes. -/
def Obligations.RdflagsReadsVariantAndPolarity : Prop :=
  (∀ (cmd : Byte) (opd : Word), cmd.toNat / 8 = 9 → decode cmd opd = Spec.decodeNone .rdflags cmd opd) ∧
  (∀ s : State, s.cnt.toNat = s.len.toNat / 8 →
    exec .rdflags s = .next
      { s with
        response := some
          ⟨BitVec.ofNat 32 (s.vsel.toNat + if s.len.toNat < 2 * s.diff.toNat then 4 else 0), .ok⟩ }) ∧
  (∀ s : State, s.cnt.toNat ≠ s.len.toNat / 8 → exec .rdflags s = .next (Spec.raised s .notReady))

/-- 43_control.md R172: RDSTATE answers STATE, before the first SEED too, where it is 0; it does not step. -/
def Obligations.RdstateReadsTheGenerator : Prop :=
  (∀ (cmd : Byte) (opd : Word), cmd.toNat / 8 = 10 → decode cmd opd = Spec.decodeNone .rdstate cmd opd) ∧
  (∀ s : State, exec .rdstate s = .next { s with response := some ⟨s.genState, .ok⟩ }) ∧
  (∀ s : State, s.Inv → s.seeded = false → exec .rdstate s = .next { s with response := some ⟨0, .ok⟩ })

/-- 43_control.md R173, 10_state.md R32: the status word bit by bit; reading it changes nothing but the response. -/
def Obligations.RdstatReadsTheStatusWord : Prop :=
  (∀ (cmd : Byte) (opd : Word), cmd.toNat / 8 = 11 → decode cmd opd = Spec.decodeNone .rdstat cmd opd) ∧
  (∀ s : State, ∃ w : Word, exec .rdstat s = .next { s with response := some ⟨w, .ok⟩ } ∧
    w.getLsbD 0 = s.seeded ∧
    w.getLsbD 1 = decide (s.cnt.toNat = s.len.toNat / 8) ∧
    w.getLsbD 2 = s.err ∧
    w.getLsbD 3 = false ∧
    (∀ i, i < 4 → w.getLsbD (4 + i) = s.errcode.getLsbD i) ∧
    (∀ i, 8 ≤ i → w.getLsbD i = false))

/-- 41_scorecard.md R120, 60_exceptions.md R208: CFG sets L and clears the scorecard for the non-zero multiples of 8, and
raises BAD_LENGTH for every other operand. -/
def Obligations.CfgSetsTheLength : Prop :=
  (∀ (cmd : Byte) (opd : Word), cmd.toNat / 8 = 12 →
    decode cmd opd = if cmd.toNat % 8 ≠ 0 then .error .illegalCmd else .ok (.cfg opd)) ∧
  (∀ (bits : Word) (s : State), bits.toNat ≠ 0 → bits.toNat % 8 = 0 →
    exec (.cfg bits) s = .next { s with len := bits, diff := 0, cnt := 0, response := some ⟨0, .ok⟩ }) ∧
  (∀ (bits : Word) (s : State), bits.toNat = 0 ∨ bits.toNat % 8 ≠ 0 →
    exec (.cfg bits) s = .next (Spec.raised s .badLength))

/-- 41_scorecard.md R128, R129. -/
def Obligations.RdcntAndRdlenReadTheirRegisters : Prop :=
  (∀ (cmd : Byte) (opd : Word), cmd.toNat / 8 = 13 → decode cmd opd = Spec.decodeNone .rdcnt cmd opd) ∧
  (∀ (cmd : Byte) (opd : Word), cmd.toNat / 8 = 14 → decode cmd opd = Spec.decodeNone .rdlen cmd opd) ∧
  (∀ s : State, exec .rdcnt s = .next { s with response := some ⟨s.cnt, .ok⟩ }) ∧
  (∀ s : State, exec .rdlen s = .next { s with response := some ⟨s.len, .ok⟩ })

/-! The spec's functions and tables. -/

/-- 00_scope.md R17, 10_state.md R30, R31: the model's generator step, normalisation, tables, polarity and match are the
spec's formulas. -/
def Obligations.PrimitivesFollowTheirFormulas : Prop :=
  (∀ w : Word, (xs w).toNat = Spec.xorshift w.toNat) ∧
  (∀ w : Word, (normZero w).toNat = if w.toNat = 0 then 1 else w.toNat) ∧
  (∀ v : BitVec 2, (offset v).map BitVec.toNat = Spec.offsets[v.toNat]?) ∧
  (∀ b : Byte, (popcnt b).toNat = Spec.popcount b) ∧
  (∀ l d : Nat, d ≤ l → (pol l d).toNat = if l - d ≥ d then 0 else 1) ∧
  (∀ l d : Nat, d ≤ l → matchOf l d = max (l - d) d)

/-- 10_state.md R40, 40_keystream.md R103: the generator step is a bijection of the 32-bit words that fixes 0, so it maps
non-zero words to non-zero words and every state comes back after some number of steps. -/
def Obligations.XorshiftIsAPeriodicBijection : Prop :=
  Function.Bijective xs ∧ (∀ w : Word, xs w = 0 ↔ w = 0) ∧
  (∀ w : Word, ∃ n, 0 < n ∧ keystreamState w n = w)

/-- 41_scorecard.md R131: the polarity laws. -/
def Obligations.PolarityLaws : Prop :=
  ∀ l d : Nat, d ≤ l →
    (pol l d = 0 ↔ 2 * d ≤ l) ∧ (pol l d = 1 ↔ l < 2 * d) ∧
    (pol l d = 0 → matchOf l d = l - d) ∧ (pol l d = 1 → matchOf l d = d) ∧ l ≤ 2 * matchOf l d

/-- 10_state.md R42: with a whole chunk scored, RDMATCH answers at least half of L, so the ratio is at least 1/2. -/
def Obligations.MatchIsAtLeastHalf : Prop :=
  ∀ s : State, s.cnt.toNat = s.len.toNat / 8 →
    ∃ t w, exec .rdmatch s = .next t ∧ t.outcome = some .ok ∧ t.resp = some w ∧
      s.len.toNat / 2 ≤ w.toNat ∧ ratioAtLeast w.toNat s.len.toNat 1 2 = true

/-! What commands may change. -/

/-- 20_memory.md R57: the reads change no register when they succeed, and only ERR and ERRCODE when they raise an error;
GEN, SCORE and XFORM step the generator exactly once when they succeed. -/
def Obligations.ReadsHaveNoSideEffects : Prop :=
  (∀ (i : Instr) (s : State), isRead i = true →
    ∃ t, exec i s = .next t ∧
      ((t.outcome = some .ok ∧ t = { s with response := t.response }) ∨
        ∃ e, t.outcome = some (.error e) ∧ t = Spec.raised s e)) ∧
  (∀ (i : Instr) (s : State), stepsGenerator i = true →
    ∃ t, exec i s = .next t ∧ (t.outcome = some .ok → t.genState = xs s.genState))

/-- 40_keystream.md R102, 70_reset_and_hazards.md R241: STATE changes only by a SEED, or by one step of a GEN, SCORE or
XFORM that raises no error. -/
def Obligations.OnlyThreeCommandsStepTheGenerator : Prop :=
  ∀ (i : Instr) (s t : State), exec i s = .next t → Spec.notSeed i = true →
    t.genState = if stepsGenerator i = true ∧ t.outcome = some .ok then xs s.genState else s.genState

/-- 10_state.md R22 to R26: who writes VSEL, SEEDED, L, DIFF and CNT. No command changes what the host has waiting: only
the host issues commands (10_state.md R34, 43_control.md R171); that what it issued stands in a list of the state is the
model's choice (log entry 1). -/
def Obligations.RegistersHaveTheirWriters : Prop :=
  ∀ (i : Instr) (s t : State), exec i s = .next t →
    (t.vsel ≠ s.vsel ∨ t.seeded ≠ s.seeded → ∃ v x, i = .seed v x ∧ t.vsel = v ∧ t.seeded = true) ∧
    (t.len ≠ s.len → ∃ bits, i = .cfg bits ∧ t.len = bits) ∧
    (t.diff ≠ s.diff ∨ t.cnt ≠ s.cnt →
      (∃ c, i = .score c) ∨ ((i = .sclr ∨ ∃ bits, i = .cfg bits) ∧ t.diff = 0 ∧ t.cnt = 0)) ∧
    t.inputs = s.inputs

/-! The invariant. -/

/-- 10_state.md R39 to R41: the reset state has the invariant. -/
def Obligations.ResetHasTheInvariant : Prop := State.reset.Inv

/-- 10_state.md R22, R23, R25, R29, R40, R41: every step keeps the invariant, whatever the host sends. -/
def Obligations.EveryStepKeepsTheInvariant : Prop :=
  ∀ s t : State, s.Inv → step s = .next t → t.Inv

/-! Sequences of commands, of any length and any operands. -/

/-- 20_memory.md R60, 10_state.md R20: commands executed one after the other are the same as steps that serve their
encodings in order. How the commands wait is the model's choice (log entry 1). -/
def Obligations.SessionIsARunOfSteps : Prop :=
  ∀ (is : List Instr) (s : State) (rest : List HostInput),
    ∃ t rs, session is s = some (t, rs) ∧ rs.length = is.length ∧
      Sys2Proof.core.run is.length { s with inputs := is.map HostInput.ofInstr ++ rest } =
        .next { t with inputs := rest }

/-- 40_keystream.md R104, 20_memory.md R50: after SEED V, x, the n-th GEN answers KS(V, x, n), from any state. -/
def Obligations.GensAnswerTheKeystream : Prop :=
  ∀ (v : BitVec 2) (x : Word) (off n : Nat) (s : State), Spec.offsets[v.toNat]? = some off →
    let s0 := BitVec.ofNat 32 (Spec.seedState off x.toNat)
    ∃ t, session (.seed v x :: List.replicate n .gen) s =
        some (t, ⟨s0, .ok⟩ :: Spec.okBytes ((List.range n).map (keystreamByte s0))) ∧
      t.genState = keystreamState s0 n

/-- 40_keystream.md R104, 70_reset_and_hazards.md R241: after a SEED and any commands that are no SEED, the generator
stands at S_n, n being the number of GEN, SCORE and XFORM commands among them that raised no error. -/
def Obligations.GeneratorPositionCountsSteps : Prop :=
  ∀ (v : BitVec 2) (x : Word) (off : Nat) (is : List Instr) (s : State),
    Spec.offsets[v.toNat]? = some off → (∀ i ∈ is, Spec.notSeed i = true) →
    ∃ t r rs, session (.seed v x :: is) s = some (t, r :: rs) ∧
      t.genState = keystreamState (BitVec.ofNat 32 (Spec.seedState off x.toNat)) (Spec.stepsTaken is rs)

/-- 40_keystream.md R105: after a SEED, what GEN, XFORM, NOP and RDSTATE answer does not depend on anything that was
there before it. -/
def Obligations.KeystreamDependsOnTheSeedOnly : Prop :=
  ∀ (v : BitVec 2) (x : Word) (is : List Instr) (s s' : State), v ≠ 3 →
    (∀ i ∈ is, Spec.generatorOnly i = true) →
    ∃ t t' rs, session (.seed v x :: is) s = some (t, rs) ∧ session (.seed v x :: is) s' = some (t', rs) ∧
      t.genState = t'.genState

/-- 40_keystream.md R101: a seed of any size, reduced modulo 2^32 by the host, gives the state of the unreduced seed. -/
def Obligations.WideSeedsLoseNothing : Prop :=
  ∀ (v : BitVec 2) (off value : Nat) (s : State), Spec.offsets[v.toNat]? = some off →
    ∃ t, exec (.seed v (BitVec.ofNat 32 value)) s = .next t ∧ t.genState.toNat = Spec.seedState off value

/-- 40_keystream.md R106: seeds with the same normalised sum give the same keystream, byte for byte. -/
def Obligations.SeedsWithTheSameSumAlias : Prop :=
  (∀ (v : BitVec 2) (x : Word) (off : Nat) (s : State), Spec.offsets[v.toNat]? = some off →
    ∃ t u, exec (.seed v x) s = .next t ∧ exec (.seed 0 (BitVec.ofNat 32 (x.toNat + off))) s = .next u ∧
      ∀ i, keystreamByte t.genState i = keystreamByte u.genState i) ∧
  (∀ (p : (BitVec 2 × Word) × (BitVec 2 × Word)) (s : State),
    p ∈ [((0#2, 0#32), (0#2, 1#32)), ((1#2, 0xAAAAAAAA#32), (0#2, 0xFFFFFFFF#32)),
        ((2#2, 0x55555556#32), (0#2, 0#32)), ((1#2, 0xAAAAAAAB#32), (0#2, 0#32))] →
    ∃ t u, exec (.seed p.1.1 p.1.2) s = .next t ∧ exec (.seed p.2.1 p.2.2) s = .next u ∧
      ∀ i, keystreamByte t.genState i = keystreamByte u.genState i)

/-- 41_scorecard.md R126: a SEED and a clearing command in either order, then one SCORE per byte of a whole chunk, leave
the number of differing bits of the chunk and the keystream, and answer the raw residual bytes; the four results read
after it are those of the formulas. -/
def Obligations.CandidateScoreIsTheBitDifference : Prop :=
  ∀ (v : BitVec 2) (x bits : Word) (off : Nat) (c : List Byte) (s : State) (clear : Instr) (pre : List Instr),
    Spec.offsets[v.toNat]? = some off → bits.toNat = 8 * c.length → c ≠ [] →
    (clear = .sclr ∧ s.len = bits ∨ clear = .cfg bits) →
    (pre = [.seed v x, clear] ∨ pre = [clear, .seed v x]) →
    let s0 := BitVec.ofNat 32 (Spec.seedState off x.toNat)
    let d := Spec.differingBits s0 0 c
    ∃ t r1 r2, session (pre ++ c.map .score) s =
        some (t, r1 :: r2 :: Spec.okBytes (Spec.maskedBytes 0 s0 0 c)) ∧
      t.diff.toNat = d ∧ t.cnt.toNat = c.length ∧ t.len = bits ∧ d ≤ bits.toNat ∧
      exec .rddiff t = .next { t with response := some ⟨BitVec.ofNat 32 d, .ok⟩ } ∧
      exec .rdzeros t = .next { t with response := some ⟨BitVec.ofNat 32 (bits.toNat - d), .ok⟩ } ∧
      exec .rdmatch t = .next { t with response := some ⟨BitVec.ofNat 32 (max (bits.toNat - d) d), .ok⟩ } ∧
      exec .rdflags t = .next
        { t with response := some ⟨BitVec.ofNat 32 (v.toNat + if bits.toNat - d ≥ d then 0 else 4), .ok⟩ }

/-- 42_transform.md R161: XFORM undoes itself under the same seed: recovering the residual of a chunk gives the chunk,
whatever the states the two runs begin in. -/
def Obligations.XformIsItsOwnInverse : Prop :=
  ∀ (p : BitVec 1) (v : BitVec 2) (x : Word) (c : List Byte) (s s' : State), v ≠ 3 →
    ∃ (t t' : State) (r : Response) (rb : List Byte), rb.length = c.length ∧
      session (residual p v x c) s = some (t, r :: Spec.okBytes rb) ∧
      session (recover p v x rb) s' = some (t', r :: Spec.okBytes c)

/-- 42_transform.md R162, 41_scorecard.md R131: the residual taken with the polarity of a candidate's score holds exactly
MATCH zero bits, at least half of them, and its bytes are the chunk XOR the keystream XOR the mask. -/
def Obligations.ResidualHoldsMatchZeroBits : Prop :=
  ∀ (v : BitVec 2) (x : Word) (off : Nat) (c : List Byte) (s : State),
    Spec.offsets[v.toNat]? = some off → s.len.toNat = 8 * c.length →
    let s0 := BitVec.ofNat 32 (Spec.seedState off x.toNat)
    ∃ (t u w : State) (rs : List Response) (rb : List Byte) (m : Word) (r : Response),
      session (candidate v x c) s = some (t, rs) ∧
      exec .rdmatch t = .next u ∧ u.resp = some m ∧ u.outcome = some .ok ∧
      session (residual t.polarity v x c) t = some (w, r :: Spec.okBytes rb) ∧
      rb = Spec.maskedBytes (if t.polarity.toNat = 1 then 0xFF else 0x00) s0 0 c ∧
      Spec.zeroBits rb = m.toNat ∧ 8 * c.length ≤ 2 * m.toNat

/-- 70_reset_and_hazards.md R242: a SEED with another variant after a finished score makes RDFLAGS report the new variant
with the old polarity. -/
def Obligations.FlagsReportTheLatestVariant : Prop :=
  ∀ (v : BitVec 2) (x : Word) (s : State), v ≠ 3 → s.cnt.toNat = s.len.toNat / 8 →
    ∃ t r, session [.seed v x, .rdflags] s = some (t, [r, ⟨BitVec.ofNat 32 (v.toNat +
        if s.len.toNat < 2 * s.diff.toNat then 4 else 0), .ok⟩]) ∧ r.outcome = .ok

/-- 70_reset_and_hazards.md R243: SEED does not clear the scorecard: the SCORE after it raises SCORE_OVERRUN if the chunk
was complete, and otherwise adds to the count that was there. The premise is the model's invariant. -/
def Obligations.ScoresAccumulateAcrossSeeds : Prop :=
  ∀ (v : BitVec 2) (x : Word) (c : Byte) (s : State), s.Inv → v ≠ 3 →
    (s.cnt.toNat = s.len.toNat / 8 →
      ∃ t r, session [.seed v x, .score c] s = some (t, [r, ⟨0, .error .scoreOverrun⟩]) ∧
        t.diff = s.diff ∧ t.cnt = s.cnt) ∧
    (s.cnt.toNat ≠ s.len.toNat / 8 →
      ∃ t r b, session [.seed v x, .score c] s = some (t, r :: Spec.okBytes [b]) ∧
        t.diff.toNat = s.diff.toNat + Spec.popcount b ∧ t.cnt.toNat = s.cnt.toNat + 1)

/-- 20_memory.md R61, 60_exceptions.md R218: in any schedule of the lanes, each lane ends where its own steps alone would
have taken it. The bank as a vector of states, of which one step moves one lane, is log entry 8 (DEDUCED); how a lane's
commands wait, and its step with none waiting, are log entries 1 and 2. -/
def Obligations.LanesAreIndependent : Prop :=
  ∀ (n : Nat) (ks : List (Fin n)) (ls : Lanes n), ∃ ms, runLanes ks ls = .next ms ∧
    ∀ k : Fin n, Sys2Proof.core.run (ks.count k) ls[k] = .next ms[k]
end

