-- ==== Sys2Proof/Laws/State.lean ====
section
/-! SUPPORT. What each named update of the state does to each field. -/

namespace Sys2Proof.Machine

/-! respond -/

@[simp] theorem State.respond_genState (s : State) (v : Word) : (s.respond v).genState = s.genState := rfl
@[simp] theorem State.respond_vsel (s : State) (v : Word) : (s.respond v).vsel = s.vsel := rfl
@[simp] theorem State.respond_seeded (s : State) (v : Word) : (s.respond v).seeded = s.seeded := rfl
@[simp] theorem State.respond_diff (s : State) (v : Word) : (s.respond v).diff = s.diff := rfl
@[simp] theorem State.respond_cnt (s : State) (v : Word) : (s.respond v).cnt = s.cnt := rfl
@[simp] theorem State.respond_len (s : State) (v : Word) : (s.respond v).len = s.len := rfl
@[simp] theorem State.respond_err (s : State) (v : Word) : (s.respond v).err = s.err := rfl
@[simp] theorem State.respond_errcode (s : State) (v : Word) : (s.respond v).errcode = s.errcode := rfl
@[simp] theorem State.respond_response (s : State) (v : Word) : (s.respond v).response = some ⟨v, .ok⟩ := rfl
@[simp] theorem State.respond_inputs (s : State) (v : Word) : (s.respond v).inputs = s.inputs := rfl

/-! raise -/

@[simp] theorem State.raise_genState (s : State) (e : ErrCode) : (s.raise e).genState = s.genState := rfl
@[simp] theorem State.raise_vsel (s : State) (e : ErrCode) : (s.raise e).vsel = s.vsel := rfl
@[simp] theorem State.raise_seeded (s : State) (e : ErrCode) : (s.raise e).seeded = s.seeded := rfl
@[simp] theorem State.raise_diff (s : State) (e : ErrCode) : (s.raise e).diff = s.diff := rfl
@[simp] theorem State.raise_cnt (s : State) (e : ErrCode) : (s.raise e).cnt = s.cnt := rfl
@[simp] theorem State.raise_len (s : State) (e : ErrCode) : (s.raise e).len = s.len := rfl
@[simp] theorem State.raise_err (s : State) (e : ErrCode) : (s.raise e).err = true := rfl
@[simp] theorem State.raise_errcode (s : State) (e : ErrCode) : (s.raise e).errcode = if s.err then s.errcode else e.code := rfl
@[simp] theorem State.raise_response (s : State) (e : ErrCode) : (s.raise e).response = some ⟨0#32, .error e⟩ := rfl
@[simp] theorem State.raise_inputs (s : State) (e : ErrCode) : (s.raise e).inputs = s.inputs := rfl

/-! advance -/

@[simp] theorem State.advance_genState (s : State) : s.advance.genState = xs s.genState := rfl
@[simp] theorem State.advance_vsel (s : State) : s.advance.vsel = s.vsel := rfl
@[simp] theorem State.advance_seeded (s : State) : s.advance.seeded = s.seeded := rfl
@[simp] theorem State.advance_diff (s : State) : s.advance.diff = s.diff := rfl
@[simp] theorem State.advance_cnt (s : State) : s.advance.cnt = s.cnt := rfl
@[simp] theorem State.advance_len (s : State) : s.advance.len = s.len := rfl
@[simp] theorem State.advance_err (s : State) : s.advance.err = s.err := rfl
@[simp] theorem State.advance_errcode (s : State) : s.advance.errcode = s.errcode := rfl
@[simp] theorem State.advance_response (s : State) : s.advance.response = s.response := rfl
@[simp] theorem State.advance_inputs (s : State) : s.advance.inputs = s.inputs := rfl

/-! clearScore -/

@[simp] theorem State.clearScore_genState (s : State) : s.clearScore.genState = s.genState := rfl
@[simp] theorem State.clearScore_vsel (s : State) : s.clearScore.vsel = s.vsel := rfl
@[simp] theorem State.clearScore_seeded (s : State) : s.clearScore.seeded = s.seeded := rfl
@[simp] theorem State.clearScore_diff (s : State) : s.clearScore.diff = 0#32 := rfl
@[simp] theorem State.clearScore_cnt (s : State) : s.clearScore.cnt = 0#32 := rfl
@[simp] theorem State.clearScore_len (s : State) : s.clearScore.len = s.len := rfl
@[simp] theorem State.clearScore_err (s : State) : s.clearScore.err = s.err := rfl
@[simp] theorem State.clearScore_errcode (s : State) : s.clearScore.errcode = s.errcode := rfl
@[simp] theorem State.clearScore_response (s : State) : s.clearScore.response = s.response := rfl
@[simp] theorem State.clearScore_inputs (s : State) : s.clearScore.inputs = s.inputs := rfl

/-! countByte -/

@[simp] theorem State.countByte_genState (s : State) (x : Byte) : (s.countByte x).genState = s.genState := rfl
@[simp] theorem State.countByte_vsel (s : State) (x : Byte) : (s.countByte x).vsel = s.vsel := rfl
@[simp] theorem State.countByte_seeded (s : State) (x : Byte) : (s.countByte x).seeded = s.seeded := rfl
@[simp] theorem State.countByte_diff (s : State) (x : Byte) : (s.countByte x).diff = s.diff + (popcnt x).setWidth 32 := rfl
@[simp] theorem State.countByte_cnt (s : State) (x : Byte) : (s.countByte x).cnt = s.cnt + 1#32 := rfl
@[simp] theorem State.countByte_len (s : State) (x : Byte) : (s.countByte x).len = s.len := rfl
@[simp] theorem State.countByte_err (s : State) (x : Byte) : (s.countByte x).err = s.err := rfl
@[simp] theorem State.countByte_errcode (s : State) (x : Byte) : (s.countByte x).errcode = s.errcode := rfl
@[simp] theorem State.countByte_response (s : State) (x : Byte) : (s.countByte x).response = s.response := rfl
@[simp] theorem State.countByte_inputs (s : State) (x : Byte) : (s.countByte x).inputs = s.inputs := rfl

/-! withInputs -/

@[simp] theorem State.withInputs_genState (s : State) (rest : List HostInput) : (s.withInputs rest).genState = s.genState := rfl
@[simp] theorem State.withInputs_vsel (s : State) (rest : List HostInput) : (s.withInputs rest).vsel = s.vsel := rfl
@[simp] theorem State.withInputs_seeded (s : State) (rest : List HostInput) : (s.withInputs rest).seeded = s.seeded := rfl
@[simp] theorem State.withInputs_diff (s : State) (rest : List HostInput) : (s.withInputs rest).diff = s.diff := rfl
@[simp] theorem State.withInputs_cnt (s : State) (rest : List HostInput) : (s.withInputs rest).cnt = s.cnt := rfl
@[simp] theorem State.withInputs_len (s : State) (rest : List HostInput) : (s.withInputs rest).len = s.len := rfl
@[simp] theorem State.withInputs_err (s : State) (rest : List HostInput) : (s.withInputs rest).err = s.err := rfl
@[simp] theorem State.withInputs_errcode (s : State) (rest : List HostInput) : (s.withInputs rest).errcode = s.errcode := rfl
@[simp] theorem State.withInputs_response (s : State) (rest : List HostInput) : (s.withInputs rest).response = s.response := rfl
@[simp] theorem State.withInputs_inputs (s : State) (rest : List HostInput) : (s.withInputs rest).inputs = rest := rfl

/-! present -/

@[simp] theorem State.present_genState (s : State) (cmd : Byte) (opd : Word) : (s.present cmd opd).genState = s.genState := rfl
@[simp] theorem State.present_vsel (s : State) (cmd : Byte) (opd : Word) : (s.present cmd opd).vsel = s.vsel := rfl
@[simp] theorem State.present_seeded (s : State) (cmd : Byte) (opd : Word) : (s.present cmd opd).seeded = s.seeded := rfl
@[simp] theorem State.present_diff (s : State) (cmd : Byte) (opd : Word) : (s.present cmd opd).diff = s.diff := rfl
@[simp] theorem State.present_cnt (s : State) (cmd : Byte) (opd : Word) : (s.present cmd opd).cnt = s.cnt := rfl
@[simp] theorem State.present_len (s : State) (cmd : Byte) (opd : Word) : (s.present cmd opd).len = s.len := rfl
@[simp] theorem State.present_err (s : State) (cmd : Byte) (opd : Word) : (s.present cmd opd).err = s.err := rfl
@[simp] theorem State.present_errcode (s : State) (cmd : Byte) (opd : Word) : (s.present cmd opd).errcode = s.errcode := rfl
@[simp] theorem State.present_response (s : State) (cmd : Byte) (opd : Word) : (s.present cmd opd).response = s.response := rfl
@[simp] theorem State.present_inputs (s : State) (cmd : Byte) (opd : Word) : (s.present cmd opd).inputs = .command cmd opd :: s.inputs := rfl

/-! applyReset -/

@[simp] theorem State.applyReset_genState (s : State) : s.applyReset.genState = 0#32 := rfl
@[simp] theorem State.applyReset_vsel (s : State) : s.applyReset.vsel = 0#2 := rfl
@[simp] theorem State.applyReset_seeded (s : State) : s.applyReset.seeded = false := rfl
@[simp] theorem State.applyReset_diff (s : State) : s.applyReset.diff = 0#32 := rfl
@[simp] theorem State.applyReset_cnt (s : State) : s.applyReset.cnt = 0#32 := rfl
@[simp] theorem State.applyReset_len (s : State) : s.applyReset.len = 1536#32 := rfl
@[simp] theorem State.applyReset_err (s : State) : s.applyReset.err = false := rfl
@[simp] theorem State.applyReset_errcode (s : State) : s.applyReset.errcode = 0#4 := rfl
@[simp] theorem State.applyReset_response (s : State) : s.applyReset.response = none := rfl
@[simp] theorem State.applyReset_inputs (s : State) : s.applyReset.inputs = s.inputs := rfl

/-! DONE reads CNT and L only. -/

theorem State.done_iff (s : State) : s.done = true ↔ s.cnt.toNat = s.len.toNat / 8 := by simp [State.done]

theorem State.done_eq_false_iff (s : State) : s.done = false ↔ s.cnt.toNat ≠ s.len.toNat / 8 := by
  simp [State.done]

@[simp] theorem State.respond_done (s : State) (v : Word) : (s.respond v).done = s.done := rfl
@[simp] theorem State.raise_done (s : State) (e : ErrCode) : (s.raise e).done = s.done := rfl
@[simp] theorem State.advance_done (s : State) : s.advance.done = s.done := rfl
@[simp] theorem State.withInputs_done (s : State) (rest : List HostInput) : (s.withInputs rest).done = s.done := rfl

end Sys2Proof.Machine
end

