-- ==== Sys2Proof/Laws/Ops.lean ====
section
/-! SUPPORT. For each shared operation, what it can answer, said once. -/

namespace Sys2Proof.Machine

theorem reply_eq (v : Word) (s : State) : reply v s = .next (s.respond v) := rfl

theorem fail_eq (e : ErrCode) (s : State) : fail e s = .next (s.raise e) := rfl

theorem reply_next_iff {v : Word} {s t : State} : reply v s = .next t ↔ t = s.respond v := by
  simp [reply, eq_comm]

theorem fail_next_iff {e : ErrCode} {s t : State} : fail e s = .next t ↔ t = s.raise e := by
  simp [fail, eq_comm]

theorem errorNumber_code (e : ErrCode) : e.code = BitVec.ofNat 4 (Spec.errorNumber e) := by
  cases e <;> rfl

/-- Raising an error is what 60_exceptions.md R210 writes out. -/
theorem State.raise_eq_raised (s : State) (e : ErrCode) : s.raise e = Spec.raised s e := by
  simp [State.raise, Spec.raised, errorNumber_code]

theorem readResult_of_done {v : Word} {s : State} (h : s.done = true) : readResult v s = .next (s.respond v) := by
  simp [readResult, h, reply]

theorem readResult_of_not_done {v : Word} {s : State} (h : s.done = false) :
    readResult v s = .next (s.raise .notReady) := by
  simp [readResult, h, fail]

/-- A result read answers OK for a whole chunk and NOT_READY otherwise, and nothing else. -/
theorem readResult_cases {v : Word} {s t : State} (h : readResult v s = .next t) :
    (s.done = true ∧ t = s.respond v) ∨ (s.done = false ∧ t = s.raise .notReady) := by
  cases hd : s.done with
  | true => rw [readResult_of_done hd] at h; cases h; exact .inl ⟨rfl, rfl⟩
  | false => rw [readResult_of_not_done hd] at h; cases h; exact .inr ⟨rfl, rfl⟩

theorem normZero_ne_zero (x : Word) : normZero x ≠ 0#32 := by
  unfold normZero
  split <;> simp_all

theorem normZero_of_ne_zero {x : Word} (h : x ≠ 0#32) : normZero x = x := by simp [normZero, h]

theorem popcnt_le_eight (b : Byte) : (popcnt b).toNat ≤ 8 := by
  revert b
  decide

@[simp] theorem offset_zero : offset 0#2 = some 0x00000000#32 := rfl
@[simp] theorem offset_one : offset 1#2 = some 0x55555555#32 := rfl
@[simp] theorem offset_two : offset 2#2 = some 0xAAAAAAAA#32 := rfl
@[simp] theorem offset_three : offset 3#2 = none := rfl

/-- A seed with a variant in the table completes and leaves the normalised sum. -/
theorem execSeed_of_offset {v : BitVec 2} {o : Word} (h : offset v = some o) (x : Word) (s : State) :
    execSeed v x s = .next
      ({ s with genState := normZero (x + o), vsel := v, seeded := true }.respond (normZero (x + o))) := by
  simp [execSeed, h, reply]

/-- A step serves nothing, a reset, a decoded command or a decoding error, and nothing else. -/
theorem step_cases (s : State) :
    (s.inputs = [] ∧ step s = .next s) ∨
    (∃ rest, s.inputs = .reset :: rest ∧ step s = .next (s.withInputs rest).applyReset) ∨
    (∃ cmd opd rest i, s.inputs = .command cmd opd :: rest ∧ decode cmd opd = .ok i ∧
      step s = exec i (s.withInputs rest)) ∨
    (∃ cmd opd rest e, s.inputs = .command cmd opd :: rest ∧ decode cmd opd = .error e ∧
      step s = .next ((s.withInputs rest).raise e)) := by
  unfold step serveNext
  cases h : s.inputs with
  | nil => exact .inl ⟨rfl, rfl⟩
  | cons x rest =>
    cases x with
    | reset => exact .inr (.inl ⟨rest, rfl, rfl⟩)
    | command cmd opd =>
      cases hd : decode cmd opd with
      | ok i => exact .inr (.inr (.inl ⟨cmd, opd, rest, i, rfl, hd, by simp [serveInput, serveCommand, hd]⟩))
      | error e =>
        exact .inr (.inr (.inr ⟨cmd, opd, rest, e, rfl, hd, by simp [serveInput, serveCommand, hd, fail]⟩))

@[simp] theorem State.withFetchWord_inputs (s : State) (nbits w : Nat) :
    (s.withFetchWord nbits w).inputs =
      .command (tableCommand nbits w).1 (tableCommand nbits w).2 :: s.inputs := rfl

end Sys2Proof.Machine

namespace Sys2Proof

open Machine

/-- A decoded command comes from its opcode, with the unused fields and operand bits 0. -/
theorem decode_ok {cmd : Byte} {opd : Word} {i : Instr} (h : decode cmd opd = .ok i) :
    select (opField cmd) (pField cmd) (vField cmd) opd = some i ∧
    (opField cmd = 1#5 ∨ vField cmd = 0#2) ∧ (opField cmd = 5#5 ∨ pField cmd = 0#1) ∧
    reservedBits (opForm (opField cmd)) opd = 0#32 := by
  unfold decode at h
  cases hs : select (opField cmd) (pField cmd) (vField cmd) opd with
  | none => rw [hs] at h; cases h
  | some j =>
    simp only [hs] at h
    split at h
    · cases h
    · split at h
      · cases h
      · split at h
        · cases h
        · cases h
          rename_i h1 h2 h3
          refine ⟨rfl, ?_, ?_, by simpa using h3⟩ <;> tauto

/-- The decoder raises no other error than these two. -/
theorem decode_error {cmd : Byte} {opd : Word} {e : ErrCode} (h : decode cmd opd = .error e) :
    e = .illegalCmd ∨ e = .reservedOperand := by
  unfold decode at h
  split at h
  · cases h; exact .inl rfl
  · split at h
    · cases h; exact .inl rfl
    · split at h
      · cases h; exact .inl rfl
      · split at h
        · cases h; exact .inr rfl
        · cases h

@[simp] theorem lowByte_zext32 (b : Byte) : lowByte (zext32 b) = b := by
  apply BitVec.eq_of_toNat_eq
  have := b.isLt
  simp [lowByte, zext32]
  omega

theorem toNat_zext32 (b : Byte) : (zext32 b).toNat = b.toNat := by
  have := b.isLt
  simp only [zext32, BitVec.toNat_setWidth]
  omega

theorem toNat_lowByte (w : Word) : (lowByte w).toNat = w.toNat % 256 := by simp [lowByte]

@[simp] theorem polarityMask_zero : polarityMask 0#1 = 0#8 := rfl
@[simp] theorem polarityMask_one : polarityMask 1#1 = 0xFF#8 := rfl

end Sys2Proof
end

