-- ==== Sys2Proof/Laws/Decode.lean ====
section
/-! SUPPORT. The decoder's fields and checks on naturals. -/

namespace Sys2Proof

open Machine

theorem opField_toNat (cmd : Byte) : (opField cmd).toNat = cmd.toNat / 8 := by
  have := cmd.isLt
  simp [opField, Nat.shiftRight_eq_div_pow]
  omega

theorem pField_toNat (cmd : Byte) : (pField cmd).toNat = cmd.toNat / 4 % 2 := by
  simp [pField, Nat.shiftRight_eq_div_pow]

theorem vField_toNat (cmd : Byte) : (vField cmd).toNat = cmd.toNat % 4 := by simp [vField]

theorem opField_eq_iff (cmd : Byte) {k : Nat} (hk : k < 32) : opField cmd = BitVec.ofNat 5 k ↔ cmd.toNat / 8 = k := by
  rw [← BitVec.toNat_inj, opField_toNat, BitVec.toNat_ofNat]
  omega

theorem pField_eq_zero_iff (cmd : Byte) : pField cmd = 0#1 ↔ cmd.toNat / 4 % 2 = 0 := by
  rw [← BitVec.toNat_inj, pField_toNat]; simp

theorem vField_eq_zero_iff (cmd : Byte) : vField cmd = 0#2 ↔ cmd.toNat % 4 = 0 := by
  rw [← BitVec.toNat_inj, vField_toNat]; simp

theorem word_eq_zero_iff (w : Word) : w = 0#32 ↔ w.toNat = 0 := by
  rw [← BitVec.toNat_inj]; simp

theorem highBits_eq_zero_iff (w : Word) : w >>> 8 = 0#32 ↔ w.toNat / 256 = 0 := by
  rw [← BitVec.toNat_inj, BitVec.toNat_ushiftRight, Nat.shiftRight_eq_div_pow]; simp

/-- The reserved opcodes, and only they, select no command. -/
theorem select_isSome (cmd : Byte) (opd : Word) (h : cmd.toNat / 8 < 15) :
    ∃ i, select (opField cmd) (pField cmd) (vField cmd) opd = some i := by
  obtain ⟨n, hn⟩ : ∃ n, cmd.toNat / 8 = n := ⟨_, rfl⟩
  rw [(opField_eq_iff cmd (by omega)).2 hn]
  rw [hn] at h
  interval_cases n <;> exact ⟨_, rfl⟩

end Sys2Proof
end

