-- ==== Sys2Proof/Laws/Exec.lean ====
section
/-! SUPPORT. What executing a command can do, said once: it raises an error, or it completes with the effect listed for
it. -/

namespace Sys2Proof.Machine

theorem execGen_of_seeded {s : State} (h : s.seeded = true) :
    execGen s = .next (s.advance.respond (zext32 s.nextByte)) := by simp [execGen, h, reply]

theorem execGen_of_unseeded {s : State} (h : s.seeded = false) : execGen s = .next (s.raise .unseeded) := by
  simp [execGen, h, fail]

theorem execXform_of_seeded {p : BitVec 1} {b : Byte} {s : State} (h : s.seeded = true) :
    execXform p b s = .next (s.advance.respond (zext32 (b ^^^ s.nextByte ^^^ polarityMask p))) := by
  simp [execXform, h, reply]

theorem execXform_of_unseeded {p : BitVec 1} {b : Byte} {s : State} (h : s.seeded = false) :
    execXform p b s = .next (s.raise .unseeded) := by simp [execXform, h, fail]

theorem execScore_of_ready {c : Byte} {s : State} (h : s.seeded = true) (hd : s.done = false) :
    execScore c s =
      .next ((s.advance.countByte (c ^^^ s.nextByte)).respond (zext32 (c ^^^ s.nextByte))) := by
  simp [execScore, h, hd, reply]

theorem execScore_of_done {c : Byte} {s : State} (h : s.seeded = true) (hd : s.done = true) :
    execScore c s = .next (s.raise .scoreOverrun) := by simp [execScore, h, hd, fail]

theorem execScore_of_unseeded {c : Byte} {s : State} (h : s.seeded = false) :
    execScore c s = .next (s.raise .unseeded) := by simp [execScore, h, fail]

theorem execCfg_of_legal {bits : Word} {s : State} (h : legalLength bits = true) :
    execCfg bits s = .next (({ s.clearScore with len := bits } : State).respond 0#32) := by
  simp [execCfg, h, reply]

theorem execCfg_of_illegal {bits : Word} {s : State} (h : legalLength bits = false) :
    execCfg bits s = .next (s.raise .badLength) := by simp [execCfg, h, fail]

theorem execSeed_of_no_offset {v : BitVec 2} {x : Word} {s : State} (h : offset v = none) :
    execSeed v x s = .next (s.raise .badVariant) := by simp [execSeed, h, fail]

/-- What a command that completes leaves, up to the response. -/
def Completes (i : Instr) (s t : State) : Prop :=
  match i with
  | .nop => t = { s with response := t.response }
  | .seed v x => ∃ o, offset v = some o ∧
      t = { s with genState := normZero (x + o), vsel := v, seeded := true, response := t.response }
  | .gen => s.seeded = true ∧ t = { s with genState := xs s.genState, response := t.response }
  | .sclr => t = { s with diff := 0, cnt := 0, response := t.response }
  | .score c => s.seeded = true ∧ s.done = false ∧
      t = { s with
        genState := xs s.genState
        diff := s.diff + (popcnt (c ^^^ s.nextByte)).setWidth 32
        cnt := s.cnt + 1#32
        response := t.response }
  | .xform _ _ => s.seeded = true ∧ t = { s with genState := xs s.genState, response := t.response }
  | .rddiff => t = { s with response := t.response }
  | .rdzeros => t = { s with response := t.response }
  | .rdmatch => t = { s with response := t.response }
  | .rdflags => t = { s with response := t.response }
  | .rdstate => t = { s with response := t.response }
  | .rdstat => t = { s with response := t.response }
  | .cfg bits => legalLength bits = true ∧
      t = { s with diff := 0, cnt := 0, len := bits, response := t.response }
  | .rdcnt => t = { s with response := t.response }
  | .rdlen => t = { s with response := t.response }

theorem readResult_answers (v : Word) (s : State) :
    ∃ t, readResult v s = .next t ∧
      ((∃ e, t = s.raise e) ∨ (t.outcome = some .ok ∧ t = { s with response := t.response })) := by
  rcases Bool.eq_false_or_eq_true s.done with h | h
  · exact ⟨_, readResult_of_done h, .inr ⟨rfl, rfl⟩⟩
  · exact ⟨_, readResult_of_not_done h, .inl ⟨_, rfl⟩⟩

/-- Every command either raises an error, changing nothing else, or completes with its effect. -/
theorem exec_cases (i : Instr) (s : State) :
    ∃ t, exec i s = .next t ∧ ((∃ e, t = s.raise e) ∨ (t.outcome = some .ok ∧ Completes i s t)) := by
  cases i with
  | seed v x =>
    cases h : offset v with
    | none => exact ⟨_, execSeed_of_no_offset h, .inl ⟨_, rfl⟩⟩
    | some o => exact ⟨_, execSeed_of_offset h x s, .inr ⟨rfl, o, h, rfl⟩⟩
  | gen =>
    rcases Bool.eq_false_or_eq_true s.seeded with h | h
    · exact ⟨_, execGen_of_seeded h, .inr ⟨rfl, h, rfl⟩⟩
    · exact ⟨_, execGen_of_unseeded h, .inl ⟨_, rfl⟩⟩
  | xform p b =>
    rcases Bool.eq_false_or_eq_true s.seeded with h | h
    · exact ⟨_, execXform_of_seeded h, .inr ⟨rfl, h, rfl⟩⟩
    · exact ⟨_, execXform_of_unseeded h, .inl ⟨_, rfl⟩⟩
  | score c =>
    rcases Bool.eq_false_or_eq_true s.seeded with h | h
    · rcases Bool.eq_false_or_eq_true s.done with hd | hd
      · exact ⟨_, execScore_of_done h hd, .inl ⟨_, rfl⟩⟩
      · exact ⟨_, execScore_of_ready h hd, .inr ⟨rfl, h, hd, rfl⟩⟩
    · exact ⟨_, execScore_of_unseeded h, .inl ⟨_, rfl⟩⟩
  | cfg bits =>
    rcases Bool.eq_false_or_eq_true (legalLength bits) with h | h
    · exact ⟨_, execCfg_of_legal h, .inr ⟨rfl, h, rfl⟩⟩
    · exact ⟨_, execCfg_of_illegal h, .inl ⟨_, rfl⟩⟩
  | rddiff => exact readResult_answers _ s
  | rdzeros => exact readResult_answers _ s
  | rdmatch => exact readResult_answers _ s
  | rdflags => exact readResult_answers _ s
  | nop => exact ⟨_, rfl, .inr ⟨rfl, rfl⟩⟩
  | sclr => exact ⟨_, rfl, .inr ⟨rfl, rfl⟩⟩
  | rdstate => exact ⟨_, rfl, .inr ⟨rfl, rfl⟩⟩
  | rdstat => exact ⟨_, rfl, .inr ⟨rfl, rfl⟩⟩
  | rdcnt => exact ⟨_, rfl, .inr ⟨rfl, rfl⟩⟩
  | rdlen => exact ⟨_, rfl, .inr ⟨rfl, rfl⟩⟩

/-- A session begins with its first command and goes on with the rest. -/
theorem session_cons {i : Instr} {is : List Instr} {s t u : State} {r : Response} {rs : List Response}
    (h : exec i s = .next t) (hr : t.response = some r) (hs : session is t = some (u, rs)) :
    session (i :: is) s = some (u, r :: rs) := by
  simp [session, h, hr, hs]

end Sys2Proof.Machine
end

