-- ==== Sys2Proof/Laws/PerInstr.lean ====
section
/-! SUPPORT. Each command's encoding lies in its row of spec/opcode_table.json: the command byte under the row's mask is
the row's match, and the operand bits that its form does not use are 0. -/

namespace Sys2Proof.Laws.TableRow

/-- The mask and match columns of a command's row. -/
def row : Instr → Byte × Byte
  | .nop => (0xFF, 0x00)
  | .seed _ _ => (0xFC, 0x08)
  | .gen => (0xFF, 0x10)
  | .sclr => (0xFF, 0x18)
  | .score _ => (0xFF, 0x20)
  | .xform _ _ => (0xFB, 0x28)
  | .rddiff => (0xFF, 0x30)
  | .rdzeros => (0xFF, 0x38)
  | .rdmatch => (0xFF, 0x40)
  | .rdflags => (0xFF, 0x48)
  | .rdstate => (0xFF, 0x50)
  | .rdstat => (0xFF, 0x58)
  | .cfg _ => (0xFF, 0x60)
  | .rdcnt => (0xFF, 0x68)
  | .rdlen => (0xFF, 0x70)

def Statement (i : Instr) : Prop :=
  commandByte i &&& (row i).1 = (row i).2 ∧
  reservedBits (opForm (opField (commandByte i))) (operandWord i) = 0#32

theorem zext32_high_bits (b : Byte) : zext32 b >>> 8 = 0#32 := by
  revert b
  decide

theorem nop : Statement .nop := ⟨rfl, rfl⟩

theorem seed (v : BitVec 2) (value : Word) : Statement (.seed v value) := by
  refine ⟨?_, ?_⟩
  · show (0x08#8 ||| v.setWidth 8) &&& 0xFC#8 = 0x08#8
    revert v; decide
  · show reservedBits (opForm (opField (0x08#8 ||| v.setWidth 8))) value = 0#32
    have h : opForm (opField (0x08#8 ||| v.setWidth 8)) = .w32 := by revert v; decide
    rw [h]; rfl

theorem gen : Statement .gen := ⟨rfl, rfl⟩

theorem sclr : Statement .sclr := ⟨rfl, rfl⟩

theorem score (c : Byte) : Statement (.score c) := by
  refine ⟨?_, ?_⟩
  · show 0x20#8 &&& 0xFF#8 = 0x20#8
    decide
  · show reservedBits (opForm (opField 0x20#8)) (zext32 c) = 0#32
    exact zext32_high_bits c

theorem xform (p : BitVec 1) (b : Byte) : Statement (.xform p b) := by
  refine ⟨?_, ?_⟩
  · show (0x28#8 ||| (p.setWidth 8 <<< 2)) &&& 0xFB#8 = 0x28#8
    revert p; decide
  · show reservedBits (opForm (opField (0x28#8 ||| (p.setWidth 8 <<< 2)))) (zext32 b) = 0#32
    have h : opForm (opField (0x28#8 ||| (p.setWidth 8 <<< 2))) = .b8 := by revert p; decide
    rw [h]; exact zext32_high_bits b

theorem rddiff : Statement .rddiff := ⟨rfl, rfl⟩

theorem rdzeros : Statement .rdzeros := ⟨rfl, rfl⟩

theorem rdmatch : Statement .rdmatch := ⟨rfl, rfl⟩

theorem rdflags : Statement .rdflags := ⟨rfl, rfl⟩

theorem rdstate : Statement .rdstate := ⟨rfl, rfl⟩

theorem rdstat : Statement .rdstat := ⟨rfl, rfl⟩

theorem cfg (bits : Word) : Statement (.cfg bits) := by
  refine ⟨?_, ?_⟩
  · show 0x60#8 &&& 0xFF#8 = 0x60#8
    decide
  · show reservedBits (opForm (opField 0x60#8)) bits = 0#32
    rfl

theorem rdcnt : Statement .rdcnt := ⟨rfl, rfl⟩

theorem rdlen : Statement .rdlen := ⟨rfl, rfl⟩

end Sys2Proof.Laws.TableRow
end

