-- ==== Sys2Proof/Tests/Slice0.lean ====
section
/-! SUPPORT. Tests. Expected values come from spec/95_test_vectors.md (V-* vectors, programs P1 to P4) and from the opcode
map 30_encoding.md R75; the witnesses show that the statements' hypotheses can be met. -/

namespace Sys2Proof.Tests

open Sys2Proof Sys2Proof.Machine

/-- The state a step answers. -/
def after (r : StepResult) : Option State :=
  match r with
  | .next s => some s
  | .fault _ => none
  | .refused _ => none

/-- The response word and outcome a step answers. -/
def answer (r : StepResult) : Option Response := (after r).bind State.response

/-- A seeded lane with L = 32 (program P2, variant 1). -/
def lane (gen diff cnt : Word) : State :=
  { State.reset with genState := gen, vsel := 1, seeded := true, len := 32, diff := diff, cnt := cnt }

/-- P2 after command 3. -/
def fresh : State := lane 0x5555593D 0 0

/-- P2 after command 7: a whole chunk scored, DIFF = 20. -/
def scored : State := lane 0x293240C2 20 4

/-- V-C4 finished: an exact tie. -/
def tied : State := lane 0x293240C2 16 4

/-- A state with an error recorded (program P3 after command 1). -/
def failed : State := { State.reset with err := true, errcode := 4 }

/-! Decoding: words of R75 bit by bit. -/

theorem test_decode_nop : decode 0b00000000 0 = .ok .nop := rfl
theorem test_decode_seed : decode 0b00001001 1000 = .ok (.seed 1 1000) := rfl
theorem test_decode_gen : decode 0b00010000 0 = .ok .gen := rfl
theorem test_decode_sclr : decode 0b00011000 0 = .ok .sclr := rfl
theorem test_decode_score : decode 0b00100000 0x9B = .ok (.score 0x9B) := rfl
theorem test_decode_xform_direct : decode 0b00101000 0x42 = .ok (.xform 0 0x42) := rfl
theorem test_decode_xform_complement : decode 0b00101100 0x42 = .ok (.xform 1 0x42) := rfl
theorem test_decode_rddiff : decode 0b00110000 0 = .ok .rddiff := rfl
theorem test_decode_rdzeros : decode 0b00111000 0 = .ok .rdzeros := rfl
theorem test_decode_rdmatch : decode 0b01000000 0 = .ok .rdmatch := rfl
theorem test_decode_rdflags : decode 0b01001000 0 = .ok .rdflags := rfl
theorem test_decode_rdstate : decode 0b01010000 0 = .ok .rdstate := rfl
theorem test_decode_rdstat : decode 0b01011000 0 = .ok .rdstat := rfl
theorem test_decode_cfg : decode 0b01100000 1536 = .ok (.cfg 1536) := rfl
theorem test_decode_rdcnt : decode 0b01101000 0 = .ok .rdcnt := rfl
theorem test_decode_rdlen : decode 0b01110000 0 = .ok .rdlen := rfl

/-! Rejected words: V-E1 to V-E5, V-E7, V-E8. -/

theorem test_reject_reserved_opcodes : decode 0x78 0 = .error .illegalCmd ∧ decode 0xFF 0 = .error .illegalCmd :=
  ⟨rfl, rfl⟩
theorem test_reject_unused_fields : decode 0x11 0 = .error .illegalCmd ∧ decode 0x24 0x12 = .error .illegalCmd ∧
    decode 0x0F 5 = .error .illegalCmd := ⟨rfl, rfl, rfl⟩
theorem test_reject_operand_bits : decode 0x00 1 = .error .reservedOperand ∧
    decode 0x20 0x100 = .error .reservedOperand := ⟨rfl, rfl⟩

/-- The one check of WellFormed refuses SEED 3 and accepts SEED 2. -/
theorem test_wf_refuses_variant_3 : (Instr.seed 3 7).wf = false ∧ (Instr.seed 2 7).wf = true := by decide

theorem test_table_words : decodeTableWord 8 0x0A = some (.seed 2 0) ∧ decodeTableWord 8 0x2C = some (.xform 1 0) ∧
    decodeTableWord 40 0x9B20 = some (.score 0x9B) ∧ decodeTableWord 8 0x78 = none := by decide

/-! One step. -/

/-- V-C7 through a step: RDLEN placed as the next command after reset. -/
theorem test_step_runs_the_placed_word : answer (step (State.reset.withFetchWord 8 0x70)) = some ⟨1536, .ok⟩ := by decide

/-- V-E8: RESERVED_OPERAND beats UNSEEDED; V-E6: BAD_VARIANT. -/
theorem test_step_error_priority :
    answer (step (State.reset.withFetchWord 40 0x10020)) = some ⟨0, .error .reservedOperand⟩ ∧
    answer (step (State.reset.withFetchWord 40 0x50B)) = some ⟨0, .error .badVariant⟩ := by decide

/-- V-E11: the first code is kept. -/
theorem test_first_error_code_kept :
    after (step (failed.withFetchWord 8 0x78)) = some { failed with response := some ⟨0, .error .illegalCmd⟩ } := by
  decide

theorem test_reset_event :
    after (step { scored with inputs := [.reset, .command 0x10 0] }) =
      some { State.reset with inputs := [.command 0x10 0] } := by decide

/-! Primitives: V-X4, V-X5, V-X8, V-X9, and the popcount spot checks. -/

theorem test_xs_masks : xs 0xFFFFFFFF = 0x0003E01F ∧ xs 0x55555555 = 0x000EDFEA ∧ xs 0x12345678 = 0x87985AA5 ∧
    xs 0 = 0 := by decide
theorem test_popcnt : popcnt 0 = 0 ∧ popcnt 0x1F = 5 ∧ popcnt 0x9E = 5 ∧ popcnt 0xC2 = 3 ∧ popcnt 0xFF = 8 := by decide

/-! The meanings. -/

theorem test_nop : after (exec .nop scored) = some { scored with response := some ⟨0, .ok⟩ } := by decide

/-- V-S8, V-S7. -/
theorem test_seed_wraps : answer (exec (.seed 1 0xFFFFFFFF) State.reset) = some ⟨0x55555554, .ok⟩ ∧
    answer (exec (.seed 2 0x55555556) State.reset) = some ⟨1, .ok⟩ := by decide
/-- V-S11. -/
theorem test_seed_bad_variant :
    after (exec (.seed 3 7) scored) =
      some { scored with err := true, errcode := 2, response := some ⟨0, .error .badVariant⟩ } := by decide

/-- P1 command 2. -/
theorem test_gen :
    after (exec .gen (lane 0x22B 0 0)) =
      some { lane 0x08E92329 0 0 with response := some ⟨0x29, .ok⟩ } := by decide
/-- V-E9. -/
theorem test_gen_unseeded : answer (exec .gen State.reset) = some ⟨0, .error .unseeded⟩ := by decide

theorem test_sclr : after (exec .sclr scored) =
    some { lane 0x293240C2 0 0 with response := some ⟨0, .ok⟩ } := by decide

/-- P2 command 4. -/
theorem test_score : after (exec (.score 0x9B) fresh) =
    some { lane 0x30224684 5 1 with response := some ⟨0x1F, .ok⟩ } := by decide
/-- V-C9. -/
theorem test_score_overrun : after (exec (.score 0) scored) =
    some { scored with err := true, errcode := 5, response := some ⟨0, .error .scoreOverrun⟩ } := by decide

/-- V-T2 and P2 command 15; V-T1. -/
theorem test_xform : after (exec (.xform 1 0x9B) fresh) =
      some { lane 0x30224684 0 0 with response := some ⟨0xE0, .ok⟩ } ∧
    answer (exec (.xform 0 0x9B) fresh) = some ⟨0x1F, .ok⟩ := by decide
/-- V-E10. -/
theorem test_xform_unseeded : answer (exec (.xform 0 0x12) State.reset) = some ⟨0, .error .unseeded⟩ := by decide

/-- V-C5. -/
theorem test_rddiff : answer (exec .rddiff scored) = some ⟨20, .ok⟩ := by decide
/-- V-C8. -/
theorem test_rddiff_not_ready : after (exec .rddiff State.reset) =
    some { State.reset with err := true, errcode := 6, response := some ⟨0, .error .notReady⟩ } := by decide
theorem test_rdzeros : answer (exec .rdzeros scored) = some ⟨12, .ok⟩ := by decide
/-- V-C5, V-C4. -/
theorem test_rdmatch : answer (exec .rdmatch scored) = some ⟨20, .ok⟩ ∧ answer (exec .rdmatch tied) = some ⟨16, .ok⟩ := by
  decide
/-- V-C5, V-C4: the tie has polarity 0. -/
theorem test_rdflags : answer (exec .rdflags scored) = some ⟨5, .ok⟩ ∧ answer (exec .rdflags tied) = some ⟨1, .ok⟩ := by
  decide
/-- V-C13. -/
theorem test_rdflags_current_variant : answer (exec .rdflags { scored with vsel := 2 }) = some ⟨6, .ok⟩ := by decide

/-- P1 command 6. -/
theorem test_rdstate : answer (exec .rdstate (lane 0x3A1E7081 0 0)) = some ⟨0x3A1E7081, .ok⟩ := by decide
/-- P3 command 3; P2 command 13. -/
theorem test_rdstat : answer (exec .rdstat failed) = some ⟨0x44, .ok⟩ ∧ answer (exec .rdstat scored) = some ⟨3, .ok⟩ := by
  decide
/-- P4 command 10. -/
theorem test_rdstat_all_flags : answer (exec .rdstat { scored with err := true, errcode := 7 }) = some ⟨0x77, .ok⟩ := by
  decide

/-- V-C12. -/
theorem test_cfg : after (exec (.cfg 0xFFFFFFF8) scored) =
    some { lane 0x293240C2 0 0 with len := 0xFFFFFFF8, response := some ⟨0, .ok⟩ } := by decide
/-- V-C10, V-C11. -/
theorem test_cfg_bad_length : answer (exec (.cfg 0) scored) = some ⟨0, .error .badLength⟩ ∧
    answer (exec (.cfg 12) scored) = some ⟨0, .error .badLength⟩ := by decide

theorem test_rdcnt : answer (exec .rdcnt scored) = some ⟨4, .ok⟩ := by decide
theorem test_rdlen : answer (exec .rdlen scored) = some ⟨32, .ok⟩ := by decide

/-! Witnesses: states and operands that meet the hypotheses of the statements. -/

theorem witness_EncodeOfDecodeIsTheWord : decode 0x2C 0xFF = .ok (.xform 1 0xFF) ∧
    decode 0x0B 0xFFFFFFFF = .ok (.seed 3 0xFFFFFFFF) := ⟨rfl, rfl⟩

theorem witness_StepServesTheFirstInteraction :
    (State.reset.present 0x20 0xFF).inputs = .command 0x20 0xFF :: [] ∧ decode 0x20 0xFF = .ok (.score 0xFF) ∧
    (State.reset.present 0x20 0x100).inputs = .command 0x20 0x100 :: [] ∧
    decode 0x20 0x100 = .error .reservedOperand ∧
    ({ scored with inputs := [.reset] } : State).inputs = .reset :: [] := ⟨rfl, rfl, rfl, rfl, rfl⟩

/-- Each outcome of the priority order is met, at boundary values of the command byte and operand (V-E vectors). -/
theorem witness_CommandOutcomeByPriority :
    Spec.outcome State.reset 0x78 0 = .error .illegalCmd ∧ Spec.outcome State.reset 0x0F 5 = .error .illegalCmd ∧
    Spec.outcome State.reset 0x0B 5 = .error .badVariant ∧ Spec.outcome State.reset 0x20 0x100 = .error .reservedOperand ∧
    Spec.outcome State.reset 0x70 1 = .error .reservedOperand ∧ Spec.outcome State.reset 0x20 0xFF = .error .unseeded ∧
    Spec.outcome scored 0x20 0 = .error .scoreOverrun ∧ Spec.outcome fresh 0x30 0 = .error .notReady ∧
    Spec.outcome fresh 0x48 0 = .error .notReady ∧ Spec.outcome fresh 0x60 12 = .error .badLength ∧
    Spec.outcome fresh 0x60 0 = .error .badLength ∧ Spec.outcome fresh 0x60 8 = .ok ∧ Spec.outcome fresh 0x70 0 = .ok := by
  decide

theorem witness_WaitingHoldsTheState : scored.inputs = [] := rfl

theorem witness_OnlyResetRestoresTheRest :
    ({ scored with err := true, errcode := 7 } : State).Inv ∧ scored.seeded = true ∧
    ({ scored with err := true, errcode := 7 } : State).errcode ≠ State.reset.errcode := by decide

theorem witness_ErrorRecordReadOnlyByRdstat : Instr.rdlen ≠ .rdstat := by decide

/-- The first clause of each per-command statement is met by the first and the last byte of the command's eight, and by a
zero and a non-zero operand. -/
theorem witness_opcode_bytes :
    (∀ k ∈ List.range 15, (BitVec.ofNat 8 (8 * k)).toNat / 8 = k ∧ (BitVec.ofNat 8 (8 * k + 7)).toNat / 8 = k) ∧
    Spec.decodeNone .gen 0x10 0 = .ok .gen ∧ Spec.decodeNone .gen 0x17 0 = .error .illegalCmd ∧
    Spec.decodeNone .gen 0x10 1 = .error .reservedOperand := ⟨by decide, rfl, rfl, rfl⟩

/-- Every variant of the table, with seeds whose sum is 0, is 1 below 2^32 and wraps (V-S2, V-S5, V-S6, V-S7). -/
theorem witness_SeedLoadsTheGenerator :
    Spec.offsets[(0#2).toNat]? = some 0 ∧ Spec.offsets[(1#2).toNat]? = some 0x55555555 ∧
    Spec.offsets[(2#2).toNat]? = some 0xAAAAAAAA ∧ Spec.seedState 0 0 = 1 ∧
    Spec.seedState 0 0xFFFFFFFF = 0xFFFFFFFF ∧ Spec.seedState 0x55555555 0xAAAAAAAB = 1 ∧
    Spec.seedState 0xAAAAAAAA 0xFFFFFFFF = 0xAAAAAAA9 := by decide

theorem witness_GenAnswersTheNextByte : fresh.seeded = true ∧ State.reset.seeded = false := ⟨rfl, rfl⟩

theorem witness_ScoreCountsTheDifferingBits :
    (fresh.seeded = true ∧ fresh.cnt.toNat ≠ fresh.len.toNat / 8) ∧ State.reset.seeded = false ∧
    (scored.seeded = true ∧ scored.cnt.toNat = scored.len.toNat / 8) := by decide

/-- The last byte of a chunk (CNT one below L / 8), and a finished chunk at DIFF = 0, the tie, one past it and L. -/
theorem witness_ScoreArithmeticIsExact :
    ((lane 0x92CBE79E 15 3).Inv ∧ (lane 0x92CBE79E 15 3).cnt.toNat ≠ (lane 0x92CBE79E 15 3).len.toNat / 8) ∧
    (∀ d ∈ [0, 16, 17, 32], (lane 1 (BitVec.ofNat 32 d) 4).Inv ∧
      (lane 1 (BitVec.ofNat 32 d) 4).cnt.toNat = (lane 1 (BitVec.ofNat 32 d) 4).len.toNat / 8) := by decide

theorem witness_XformAnswersTheMaskedXor : fresh.seeded = true ∧ State.reset.seeded = false ∧ (1#1).toNat = 1 ∧
    (0#1).toNat ≠ 1 := by decide

/-- For RDDIFF, RDZEROS, RDMATCH, RDFLAGS and MatchIsAtLeastHalf: a finished chunk, below, at and past the tie, and an
unfinished one. -/
theorem witness_result_reads :
    (scored.cnt.toNat = scored.len.toNat / 8 ∧ scored.CountsBounded ∧ scored.len.toNat < 2 * scored.diff.toNat) ∧
    (tied.cnt.toNat = tied.len.toNat / 8 ∧ tied.CountsBounded ∧ ¬ tied.len.toNat < 2 * tied.diff.toNat) ∧
    fresh.cnt.toNat ≠ fresh.len.toNat / 8 := by decide

theorem witness_RdstateReadsTheGenerator : State.reset.Inv ∧ State.reset.seeded = false := by decide

/-- The least and the greatest legal length, and both ways to be illegal. -/
theorem witness_CfgSetsTheLength :
    ((8#32).toNat ≠ 0 ∧ (8#32).toNat % 8 = 0) ∧ ((0xFFFFFFF8#32).toNat ≠ 0 ∧ (0xFFFFFFF8#32).toNat % 8 = 0) ∧
    (0#32).toNat = 0 ∧ (0xFFFFFFFF#32).toNat % 8 ≠ 0 := by decide

theorem witness_ReadsHaveNoSideEffects : isRead .rdflags = true ∧ isRead .rdlen = true ∧
    stepsGenerator .gen = true ∧ stepsGenerator (.score 0) = true := by decide

theorem witness_OnlyThreeCommandsStepTheGenerator :
    after (exec .gen fresh) = some { lane 0x30224684 0 0 with response := some ⟨0x84, .ok⟩ } ∧
    Spec.notSeed .gen = true := by decide

theorem witness_RegistersHaveTheirWriters :
    after (exec (.cfg 8) scored) = some { lane 0x293240C2 0 0 with len := 8, response := some ⟨0, .ok⟩ } ∧
    after (exec (.seed 2 5) scored) =
      some { scored with genState := 0xAAAAAAAF, vsel := 2, response := some ⟨0xAAAAAAAF, .ok⟩ } := by decide

theorem witness_EveryStepKeepsTheInvariant : (scored.present 0x20 0).Inv ∧
    after (step (fresh.present 0x20 0x9B)) = some { lane 0x30224684 5 1 with response := some ⟨0x1F, .ok⟩ } := by decide

theorem witness_PolarityLaws : (16 ≤ 32 ∧ pol 32 16 = 0) ∧ (17 ≤ 32 ∧ pol 32 17 = 1) ∧ pol 32 32 = 1 ∧ pol 0 0 = 0 := by
  decide

/-- For the statements about keystreams: a variant of the table, and commands that are no SEED. -/
theorem witness_keystream_hypotheses : Spec.offsets[(2#2).toNat]? = some 0xAAAAAAAA ∧ (2#2 : BitVec 2) ≠ 3 ∧
    (∀ i ∈ [Instr.gen, .nop, .score 1, .rdlen], Spec.notSeed i = true) ∧
    (∀ i ∈ [Instr.gen, .nop, .xform 1 7, .rdstate], Spec.generatorOnly i = true) := by decide

/-- A chunk of one byte, scored after SCLR with L = 8 already set, and one of four after CFG 32. -/
theorem witness_CandidateScoreIsTheBitDifference :
    (Spec.offsets[(1#2).toNat]? = some 0x55555555 ∧ (8#32).toNat = 8 * [0x9B#8].length ∧ [0x9B#8] ≠ [] ∧
      ({ fresh with len := 8 } : State).len = 8) ∧
    (32#32).toNat = 8 * [0x9B#8, 0x42#8, 0x81#8, 0xDD#8].length := by decide

theorem witness_ResidualHoldsMatchZeroBits : Spec.offsets[(1#2).toNat]? = some 0x55555555 ∧
    fresh.len.toNat = 8 * [0x9B#8, 0x42#8, 0x81#8, 0xDD#8].length := by decide

theorem witness_FlagsReportTheLatestVariant : (2#2 : BitVec 2) ≠ 3 ∧ scored.cnt.toNat = scored.len.toNat / 8 := by decide

theorem witness_ScoresAccumulateAcrossSeeds : scored.Inv ∧ (0#2 : BitVec 2) ≠ 3 ∧
    scored.cnt.toNat = scored.len.toNat / 8 ∧ (lane 0x66ADA55D 10 2).Inv ∧
    (lane 0x66ADA55D 10 2).cnt.toNat ≠ (lane 0x66ADA55D 10 2).len.toNat / 8 := by decide

end Sys2Proof.Tests
end

section
/-! The primitives on naturals: generator step, normalisation, tables, polarity and match, and the obligation that
collects them (O27). -/

namespace Sys2Proof.Machine

/-! The generator's arithmetic (00_scope.md R17) -/

theorem toNat_xs (w : Word) : (xs w).toNat = Spec.xorshift w.toNat := by
  simp only [xs, Spec.xorshift, BitVec.toNat_xor, BitVec.toNat_shiftLeft, BitVec.toNat_ushiftRight]

theorem toNat_normZero (w : Word) : (normZero w).toNat = if w.toNat = 0 then 1 else w.toNat := by
  by_cases h : w = 0#32
  · simp [h, normZero]
  · rw [normZero_of_ne_zero h, if_neg (mt (word_eq_zero_iff w).2 h)]

/-! The tables (10_state.md R30, R31) -/

theorem offset_map_toNat (v : BitVec 2) : (offset v).map BitVec.toNat = Spec.offsets[v.toNat]? := by
  revert v
  decide

theorem toNat_bitCount (b : Byte) (i : Nat) : (bitCount b i).toNat = (b.getLsbD i).toNat := by
  cases h : b.getLsbD i <;> simp [bitCount, h]

/-- Counting the elements that pass a test is summing the test's truth values. -/
theorem length_filter_eq_sum_toNat {α : Type} (p : α → Bool) (l : List α) :
    (l.filter p).length = (l.map fun a => (p a).toNat).sum := by
  induction l with
  | nil => rfl
  | cons a l ih => cases h : p a <;> simp [h, ih, Nat.add_comm]

theorem popcount_eq_sum (b : Byte) :
    Spec.popcount b = ((List.range 8).map fun i => (b.getLsbD i).toNat).sum :=
  length_filter_eq_sum_toNat _ _

theorem popcount_le_eight (b : Byte) : Spec.popcount b ≤ 8 := List.length_filter_le _ _

/-- The count is at most 8, so the 4-bit additions of a table entry do not wrap. -/
theorem toNat_popcnt (b : Byte) : (popcnt b).toNat = Spec.popcount b := by
  have no_wrap : Spec.popcount b % 2 ^ 4 = Spec.popcount b :=
    Nat.mod_eq_of_lt ((popcount_le_eight b).trans_lt (by decide))
  rw [← no_wrap, popcount_eq_sum]
  simp [popcnt, toNat_bitCount, List.range, List.range.loop, Nat.add_assoc]

/-! Polarity and match (R17) -/

theorem toNat_pol (l d : Nat) : (pol l d).toNat = if l - d ≥ d then 0 else 1 := by
  unfold pol zerosOf
  split <;> rfl

theorem matchOf_eq_max (l d : Nat) : matchOf l d = max (l - d) d := rfl

/-- Settles O27: each clause is the primitive's own lemma; POL's and MATCH's formulas do not need `d ≤ l`. -/
theorem primitivesFollowTheirFormulas : Obligations.PrimitivesFollowTheirFormulas :=
  ⟨toNat_xs, toNat_normZero, offset_map_toNat, toNat_popcnt, fun l d _ => toNat_pol l d, fun l d _ => matchOf_eq_max l d⟩

end Sys2Proof.Machine
end

section
/-! The generator step as a permutation of the words that fixes 0 (O28). -/

namespace Sys2Proof.Machine

/-- A word XOR its own shift determines the word: where two words have the same image, the shift leaves their XOR as it
is, and, done often enough, shifts all of it out. -/
theorem xor_shift_injective {w k : Nat} {shift : BitVec w → Nat → BitVec w}
    (shift_xor : ∀ x y n, shift (x ^^^ y) n = shift x n ^^^ shift y n)
    (shift_add : ∀ x m n, shift x (m + n) = shift (shift x m) n)
    (shift_out : ∀ x n, w ≤ n → shift x n = 0#w) (hk : 0 < k) : Function.Injective fun x => x ^^^ shift x k := by
  intro x y (hxy : x ^^^ shift x k = y ^^^ shift y k)
  have fixed : shift (x ^^^ y) k = x ^^^ y := by
    calc shift (x ^^^ y) k = shift x k ^^^ shift y k := shift_xor x y k
      _ = x ^^^ (x ^^^ shift x k) ^^^ shift y k := by rw [← BitVec.xor_assoc x x, BitVec.xor_self, BitVec.zero_xor]
      _ = x ^^^ y := by rw [hxy, BitVec.xor_assoc, BitVec.xor_assoc, BitVec.xor_self, BitVec.xor_zero]
  have fixed_mul (n : Nat) : shift (x ^^^ y) ((n + 1) * k) = x ^^^ y := by
    induction n with
    | zero => rw [Nat.zero_add, Nat.one_mul, fixed]
    | succ n ih => rw [Nat.succ_mul, shift_add, ih, fixed]
  have out : w ≤ (w + 1) * k := (Nat.le_succ w).trans (Nat.le_mul_of_pos_right _ hk)
  exact BitVec.xor_eq_zero_iff.1 ((fixed_mul w).symm.trans (shift_out _ _ out))

theorem xor_shiftLeft_injective (w : Nat) {k : Nat} (hk : 0 < k) :
    Function.Injective fun x : BitVec w => x ^^^ (x <<< k) :=
  xor_shift_injective (shift := fun x n => x <<< n) BitVec.shiftLeft_xor_distrib BitVec.shiftLeft_add
    (fun _ _ h => BitVec.shiftLeft_eq_zero h) hk

theorem xor_ushiftRight_injective (w : Nat) {k : Nat} (hk : 0 < k) :
    Function.Injective fun x : BitVec w => x ^^^ (x >>> k) :=
  xor_shift_injective (shift := fun x n => x >>> n) BitVec.ushiftRight_xor_distrib BitVec.shiftRight_add
    (fun _ _ h => BitVec.ushiftRight_eq_zero h) hk

/-- XS is three xorshifts one after the other (00_scope.md R17). -/
theorem xs_eq_comp : xs =
    (fun x : Word => x ^^^ (x <<< 5)) ∘ (fun x : Word => x ^^^ (x >>> 17)) ∘ fun x : Word => x ^^^ (x <<< 13) := rfl

theorem xs_injective : Function.Injective xs := by
  rw [xs_eq_comp]
  exact (xor_shiftLeft_injective 32 (by decide)).comp
    ((xor_ushiftRight_injective 32 (by decide)).comp (xor_shiftLeft_injective 32 (by decide)))

theorem xs_zero : xs 0#32 = 0#32 := by decide

theorem xs_eq_zero_iff (w : Word) : xs w = 0#32 ↔ w = 0#32 :=
  ⟨fun h => xs_injective (h.trans xs_zero.symm), fun h => h ▸ xs_zero⟩

theorem keystreamState_eq_iterate (w : Word) (n : Nat) : keystreamState w n = xs^[n] w := by
  induction n with
  | zero => rfl
  | succ n ih => rw [keystreamState, ih, Function.iterate_succ_apply']

/-- Settles O28: XS is injective and there are finitely many words, so it is a bijection and every word is periodic. -/
theorem xorshiftIsAPeriodicBijection : Obligations.XorshiftIsAPeriodicBijection := by
  refine ⟨Finite.injective_iff_bijective.1 xs_injective, xs_eq_zero_iff, fun w => ?_⟩
  obtain ⟨n, hpos, hperiodic⟩ := xs_injective.mem_periodicPts w
  exact ⟨n, hpos, (keystreamState_eq_iterate w n).trans hperiodic⟩

end Sys2Proof.Machine
end

section
/-! What a completed command does, by the operation it applies to the state, and so which command wrote a register
(O33). -/

namespace Sys2Proof.Machine

/-- `exec_cases` for a next state that is given. -/
theorem exec_raises_or_completes {i : Instr} {s t : State} (h : exec i s = .next t) :
    (∃ e, t = s.raise e) ∨ Completes i s t := by
  obtain ⟨u, hu, hcases⟩ := exec_cases i s
  cases h.symm.trans hu
  exact hcases.imp_right And.right

/-- A completed command applies one of six operations and leaves a response; only SEED, SCORE, SCLR and CFG do more than
step the generator. -/
theorem completes_cases {i : Instr} {s t : State} (h : Completes i s t) :
    t = { s with response := t.response } ∨
    (s.seeded = true ∧ t = { s.advance with response := t.response }) ∨
    (∃ v x o, i = .seed v x ∧ offset v = some o ∧
      t = { s with genState := normZero (x + o), vsel := v, seeded := true, response := t.response }) ∨
    (∃ c, i = .score c ∧ s.seeded = true ∧ s.done = false ∧
      t = { s.advance.countByte (c ^^^ s.nextByte) with response := t.response }) ∨
    (i = .sclr ∧ t = { s.clearScore with response := t.response }) ∨
    (∃ bits, i = .cfg bits ∧ legalLength bits = true ∧
      t = { s.clearScore with len := bits, response := t.response }) := by
  cases i with
  | gen => exact .inr (.inl h)
  | xform p b => exact .inr (.inl h)
  | seed v x =>
    obtain ⟨o, ho, ht⟩ := h
    exact .inr (.inr (.inl ⟨v, x, o, rfl, ho, ht⟩))
  | score c => exact .inr (.inr (.inr (.inl ⟨c, rfl, h⟩)))
  | sclr => exact .inr (.inr (.inr (.inr (.inl ⟨rfl, h⟩))))
  | cfg bits => exact .inr (.inr (.inr (.inr (.inr ⟨bits, rfl, h⟩))))
  | nop => exact .inl h
  | rddiff => exact .inl h
  | rdzeros => exact .inl h
  | rdmatch => exact .inl h
  | rdflags => exact .inl h
  | rdstate => exact .inl h
  | rdstat => exact .inl h
  | rdcnt => exact .inl h
  | rdlen => exact .inl h

/-- A register that changed under a command that raised no error tells which command it was; nothing changes the list of
waiting interactions. In each of the six cases the registers of the two states are compared field by field. -/
theorem completes_writers {i : Instr} {s t : State} (h : Completes i s t) :
    (t.vsel ≠ s.vsel ∨ t.seeded ≠ s.seeded → ∃ v x, i = .seed v x ∧ t.vsel = v ∧ t.seeded = true) ∧
    (t.len ≠ s.len → ∃ bits, i = .cfg bits ∧ t.len = bits) ∧
    (t.diff ≠ s.diff ∨ t.cnt ≠ s.cnt →
      (∃ c, i = .score c) ∨ ((i = .sclr ∨ ∃ bits, i = .cfg bits) ∧ t.diff = 0 ∧ t.cnt = 0)) ∧
    t.inputs = s.inputs := by
  obtain ht | ⟨-, ht⟩ | ⟨v, x, o, rfl, -, ht⟩ | ⟨c, rfl, -, -, ht⟩ | ⟨rfl, ht⟩ | ⟨bits, rfl, -, ht⟩ :=
    completes_cases h <;> rw [ht] <;> simp

/-- Settles O33: a raised error writes none of these registers, and a completed command only its own. -/
theorem registersHaveTheirWriters : Obligations.RegistersHaveTheirWriters := by
  intro i s t h
  obtain ⟨e, rfl⟩ | hcompletes := exec_raises_or_completes h
  · simp
  · exact completes_writers hcompletes

end Sys2Proof.Machine
end

section
/-! The invariant of one lane: each operation of the state keeps it, so every completed command, every raised error and
every step does (O35), and it holds at reset (O34). -/

namespace Sys2Proof.Machine

/-! Each operation keeps the invariant. Responses and waiting interactions are not in it, so states that differ in these
only have it together, by definition. -/

theorem State.reset_inv : State.reset.Inv := by decide

theorem errCode_legal (e : ErrCode) : e.code ≠ 0#4 ∧ e.code.toNat ≤ 7 := by
  cases e <;> decide

theorem State.Inv.raise {s : State} (hs : s.Inv) (e : ErrCode) : (s.raise e).Inv := by
  obtain ⟨hnonzero, hvariant, hlength, hcounts, ⟨hflag, hcode⟩, hzero⟩ := hs
  refine ⟨hnonzero, hvariant, hlength, hcounts, ?_, hzero⟩
  rw [State.ErrorRecordLegal, State.raise_err, State.raise_errcode]
  cases herr : s.err with
  | true => simpa [herr] using And.intro hflag hcode
  | false => simpa using errCode_legal e

theorem State.Inv.advance {s : State} (hs : s.Inv) (hseeded : s.seeded = true) : s.advance.Inv := by
  obtain ⟨hnonzero, hvariant, hlength, hcounts, herror, -⟩ := hs
  refine ⟨fun _ => ?_, hvariant, hlength, hcounts, herror, fun hunseeded => ?_⟩
  · exact mt (xs_eq_zero_iff s.genState).1 (hnonzero hseeded)
  · exact absurd (hseeded.symm.trans hunseeded) (by decide)

theorem State.Inv.seed {s : State} (hs : s.Inv) {v : BitVec 2} {o : Word} (ho : offset v = some o) (x : Word) :
    ({ s with genState := normZero (x + o), vsel := v, seeded := true } : State).Inv := by
  obtain ⟨-, -, hlength, hcounts, herror, -⟩ := hs
  refine ⟨fun _ => normZero_ne_zero _, ?_, hlength, hcounts, herror, fun h => nomatch h⟩
  rintro rfl
  simp at ho

theorem State.clearScore_countsBounded (s : State) : s.clearScore.CountsBounded := ⟨Nat.le_refl 0, Nat.zero_le _⟩

theorem State.Inv.clearScore {s : State} (hs : s.Inv) : s.clearScore.Inv := by
  obtain ⟨hnonzero, hvariant, hlength, -, herror, hzero⟩ := hs
  exact ⟨hnonzero, hvariant, hlength, s.clearScore_countsBounded, herror, hzero⟩

theorem legalLength_iff (bits : Word) : legalLength bits = true ↔ bits ≠ 0#32 ∧ bits.toNat % 8 = 0 := by
  simp [legalLength]

theorem State.Inv.configure {s : State} (hs : s.Inv) {bits : Word} (hbits : legalLength bits = true) :
    ({ s.clearScore with len := bits } : State).Inv := by
  obtain ⟨hnonzero, hvariant, -, -, herror, hzero⟩ := hs
  exact ⟨hnonzero, hvariant, (legalLength_iff bits).1 hbits, ⟨Nat.le_refl 0, Nat.zero_le _⟩, herror, hzero⟩

/-- An unfinished chunk has room for a whole byte, so the sums neither wrap nor pass L (10_state.md R41). -/
theorem State.CountsBounded.countByte {s : State} (hs : s.CountsBounded) (hd : s.done = false) (x : Byte) :
    (s.countByte x).CountsBounded := by
  obtain ⟨hdiff, hcnt⟩ := hs
  have unfinished := s.done_eq_false_iff.1 hd
  have added := popcnt_le_eight x
  have len_lt := s.len.isLt
  simp only [State.CountsBounded, State.countByte_diff, State.countByte_cnt, State.countByte_len, BitVec.toNat_add,
    BitVec.toNat_setWidth, BitVec.toNat_ofNat]
  omega

theorem State.Inv.countByte {s : State} (hs : s.Inv) (hd : s.done = false) (x : Byte) : (s.countByte x).Inv := by
  obtain ⟨hnonzero, hvariant, hlength, hcounts, herror, hzero⟩ := hs
  exact ⟨hnonzero, hvariant, hlength, hcounts.countByte hd x, herror, hzero⟩

/-! Commands and steps keep the invariant -/

theorem State.Inv.completes {i : Instr} {s t : State} (hs : s.Inv) (h : Completes i s t) : t.Inv := by
  obtain ht | ⟨hseeded, ht⟩ | ⟨v, x, o, -, ho, ht⟩ | ⟨c, -, hseeded, hd, ht⟩ | ⟨-, ht⟩ | ⟨bits, -, hbits, ht⟩ :=
    completes_cases h <;> rw [ht]
  · exact hs
  · exact hs.advance hseeded
  · exact hs.seed ho x
  · exact (hs.advance hseeded).countByte hd _
  · exact hs.clearScore
  · exact hs.configure hbits

theorem State.Inv.exec {i : Instr} {s t : State} (hs : s.Inv) (h : exec i s = .next t) : t.Inv := by
  obtain ⟨e, rfl⟩ | hcompletes := exec_raises_or_completes h
  · exact hs.raise e
  · exact hs.completes hcompletes

/-- Settles O35: a step waits, resets, executes a command or raises a decoding error, and each keeps the invariant. -/
theorem everyStepKeepsTheInvariant : Obligations.EveryStepKeepsTheInvariant := by
  intro s t hs h
  obtain ⟨-, hstep⟩ | ⟨rest, -, hstep⟩ | ⟨_, _, rest, i, -, -, hstep⟩ | ⟨_, _, rest, e, -, -, hstep⟩ := step_cases s <;>
    rw [hstep] at h
  · cases h; exact hs
  · cases h; exact State.reset_inv
  · exact State.Inv.exec (s := s.withInputs rest) hs h
  · cases h; exact State.Inv.raise (s := s.withInputs rest) hs e

/-- Settles O34. -/
theorem resetHasTheInvariant : Obligations.ResetHasTheInvariant := State.reset_inv

end Sys2Proof.Machine
end

section
/-! The answer of RDMATCH (O30). -/

namespace Sys2Proof.Machine

theorem le_two_mul_matchOf (l d : Nat) : l ≤ 2 * matchOf l d := by
  rw [matchOf_eq_max]
  omega

/-- MATCH of two registers is the larger of two words, so the response holds it exactly. -/
theorem toNat_ofNat_matchOf (l d : Word) :
    (BitVec.ofNat 32 (matchOf l.toNat d.toNat)).toNat = matchOf l.toNat d.toNat := by
  have := l.isLt
  have := d.isLt
  rw [BitVec.toNat_ofNat, matchOf_eq_max]
  omega

/-- Settles O30: the agreeing and the differing bits make up at least L, so the larger count is at least half of it. -/
theorem matchIsAtLeastHalf : Obligations.MatchIsAtLeastHalf := by
  intro s hdone
  have half := le_two_mul_matchOf s.len.toNat s.diff.toNat
  refine ⟨_, _, readResult_of_done (s.done_iff.2 hdone), rfl, rfl, ?_, ?_⟩
  · rw [toNat_ofNat_matchOf]
    omega
  · rw [toNat_ofNat_matchOf, ratioAtLeast, decide_eq_true_iff]
    omega

end Sys2Proof.Machine
end

section
/-! What a command does not read: the list of waiting interactions, and, RDSTAT apart, the error record (O11). -/

namespace Sys2Proof.Machine

/-- The state with another error record and other interactions waiting. -/
def State.withUnread (s : State) (b : Bool) (c : BitVec 4) (l : List HostInput) : State :=
  { s with err := b, errcode := c, inputs := l }

/-- What two states that differ in `withUnread` only answer: they raise the same error, or both complete with the same
changes and hold the error record and list they had. -/
def SameEffect (s : State) (b : Bool) (c : BitVec 4) (l : List HostInput) (r r' : StepResult) : Prop :=
  (∃ e, r = .next (s.raise e) ∧ r' = .next ((s.withUnread b c l).raise e)) ∨
  (∃ t, r = .next t ∧ t.err = s.err ∧ t.errcode = s.errcode ∧ r' = .next (t.withUnread b c l))

theorem sameEffect_readResult (v : Word) (s : State) (b : Bool) (c : BitVec 4) (l : List HostInput) :
    SameEffect s b c l (readResult v s) (readResult v (s.withUnread b c l)) := by
  rcases Bool.eq_false_or_eq_true s.done with h | h
  · exact .inr ⟨_, readResult_of_done h, rfl, rfl, readResult_of_done (s := s.withUnread b c l) h⟩
  · exact .inl ⟨_, readResult_of_not_done h, readResult_of_not_done (s := s.withUnread b c l) h⟩

/-- RDSTAT is the one command that reads the error record (10_state.md R28); none reads the list. -/
theorem exec_sameEffect (i : Instr) (s : State) (b : Bool) (c : BitVec 4) (l : List HostInput)
    (hread : i = .rdstat → b = s.err ∧ c = s.errcode) :
    SameEffect s b c l (exec i s) (exec i (s.withUnread b c l)) := by
  cases i with
  | seed v x =>
    cases h : offset v with
    | none => exact .inl ⟨_, execSeed_of_no_offset h, execSeed_of_no_offset h⟩
    | some o => exact .inr ⟨_, execSeed_of_offset h x s, rfl, rfl, execSeed_of_offset h x (s.withUnread b c l)⟩
  | gen =>
    rcases Bool.eq_false_or_eq_true s.seeded with h | h
    · exact .inr ⟨_, execGen_of_seeded h, rfl, rfl, execGen_of_seeded (s := s.withUnread b c l) h⟩
    · exact .inl ⟨_, execGen_of_unseeded h, execGen_of_unseeded (s := s.withUnread b c l) h⟩
  | xform p x =>
    rcases Bool.eq_false_or_eq_true s.seeded with h | h
    · exact .inr ⟨_, execXform_of_seeded h, rfl, rfl, execXform_of_seeded (s := s.withUnread b c l) h⟩
    · exact .inl ⟨_, execXform_of_unseeded h, execXform_of_unseeded (s := s.withUnread b c l) h⟩
  | score x =>
    rcases Bool.eq_false_or_eq_true s.seeded with h | h
    · rcases Bool.eq_false_or_eq_true s.done with hd | hd
      · exact .inl ⟨_, execScore_of_done h hd, execScore_of_done (s := s.withUnread b c l) h hd⟩
      · exact .inr ⟨_, execScore_of_ready h hd, rfl, rfl, execScore_of_ready (s := s.withUnread b c l) h hd⟩
    · exact .inl ⟨_, execScore_of_unseeded h, execScore_of_unseeded (s := s.withUnread b c l) h⟩
  | cfg bits =>
    rcases Bool.eq_false_or_eq_true (legalLength bits) with h | h
    · exact .inr ⟨_, execCfg_of_legal h, rfl, rfl, execCfg_of_legal h⟩
    · exact .inl ⟨_, execCfg_of_illegal h, execCfg_of_illegal h⟩
  | rddiff => exact sameEffect_readResult _ s b c l
  | rdzeros => exact sameEffect_readResult _ s b c l
  | rdmatch => exact sameEffect_readResult _ s b c l
  | rdflags => exact sameEffect_readResult _ s b c l
  | rdstat =>
    obtain ⟨rfl, rfl⟩ := hread rfl
    exact .inr ⟨_, rfl, rfl, rfl, rfl⟩
  | nop => exact .inr ⟨_, rfl, rfl, rfl, rfl⟩
  | sclr => exact .inr ⟨_, rfl, rfl, rfl, rfl⟩
  | rdstate => exact .inr ⟨_, rfl, rfl, rfl, rfl⟩
  | rdcnt => exact .inr ⟨_, rfl, rfl, rfl, rfl⟩
  | rdlen => exact .inr ⟨_, rfl, rfl, rfl, rfl⟩

/-- Settles O11: with another error record a command raises the same error or completes with the same changes. -/
theorem errorRecordReadOnlyByRdstat : Obligations.ErrorRecordReadOnlyByRdstat := by
  intro i s b c hi
  obtain ⟨e, hs, hs'⟩ | ⟨t, hs, -, -, hs'⟩ := exec_sameEffect i s b c s.inputs fun h => absurd h hi
  · exact ⟨_, _, hs, hs', rfl⟩
  · obtain ⟨-, -, -, hinputs⟩ := registersHaveTheirWriters i s t hs
    refine ⟨_, _, hs, hs', ?_⟩
    simp [State.withUnread, hinputs]

/-- A command does the same whatever waits behind it. -/
theorem exec_withInputs {i : Instr} {s t : State} (h : exec i s = .next t) (l : List HostInput) :
    exec i (s.withInputs l) = .next (t.withInputs l) := by
  obtain ⟨e, hs, hs'⟩ | ⟨u, hs, herr, hcode, hs'⟩ := exec_sameEffect i s s.err s.errcode l fun _ => ⟨rfl, rfl⟩
  · cases h.symm.trans hs
    exact hs'
  · cases h.symm.trans hs
    have same : t.withUnread s.err s.errcode l = t.withInputs l := by rw [← herr, ← hcode]; rfl
    exact hs'.trans (congrArg _ same)

end Sys2Proof.Machine
end

section
/-! Sessions as runs of steps (O36): a step that finds a command's encoding executes the command. -/

namespace Sys2Proof

/-- The decoder's checks are all there is between a selected command and its answer; the converse of `decode_ok`. -/
theorem decode_of_select {cmd : Byte} {opd : Word} {i : Instr}
    (hselect : select (opField cmd) (pField cmd) (vField cmd) opd = some i)
    (hv : opField cmd = 1#5 ∨ vField cmd = 0#2) (hp : opField cmd = 5#5 ∨ pField cmd = 0#1)
    (hr : reservedBits (opForm (opField cmd)) opd = 0#32) : decode cmd opd = .ok i := by
  have no_v : ¬ (opField cmd ≠ 1#5 ∧ vField cmd ≠ 0#2) := by tauto
  have no_p : ¬ (opField cmd ≠ 5#5 ∧ pField cmd ≠ 0#1) := by tauto
  simp [decode, hselect, no_v, no_p, hr]

theorem seed_fields (v : BitVec 2) (x : Word) : opField (commandByte (.seed v x)) = 1#5 ∧
    pField (commandByte (.seed v x)) = 0#1 ∧ vField (commandByte (.seed v x)) = v := by
  show opField (0x08#8 ||| v.setWidth 8) = 1#5 ∧ pField (0x08#8 ||| v.setWidth 8) = 0#1 ∧
    vField (0x08#8 ||| v.setWidth 8) = v
  revert v
  decide

theorem xform_fields (p : BitVec 1) (b : Byte) : opField (commandByte (.xform p b)) = 5#5 ∧
    pField (commandByte (.xform p b)) = p ∧ vField (commandByte (.xform p b)) = 0#2 := by
  show opField (0x28#8 ||| (p.setWidth 8 <<< 2)) = 5#5 ∧ pField (0x28#8 ||| (p.setWidth 8 <<< 2)) = p ∧
    vField (0x28#8 ||| (p.setWidth 8 <<< 2)) = 0#2
  revert p
  decide

theorem score_fields (c : Byte) : opField (commandByte (.score c)) = 4#5 ∧
    pField (commandByte (.score c)) = 0#1 ∧ vField (commandByte (.score c)) = 0#2 := by
  show opField 0x20#8 = 4#5 ∧ pField 0x20#8 = 0#1 ∧ vField 0x20#8 = 0#2
  decide

theorem cfg_fields (bits : Word) : opField (commandByte (.cfg bits)) = 12#5 ∧
    pField (commandByte (.cfg bits)) = 0#1 ∧ vField (commandByte (.cfg bits)) = 0#2 := by
  show opField 0x60#8 = 12#5 ∧ pField 0x60#8 = 0#1 ∧ vField 0x60#8 = 0#2
  decide

/-- Every command is what its encoding decodes to (30_encoding.md R79); SEED 3 too (log entry 5). -/
theorem decode_commandByte_operandWord (i : Instr) : decode (commandByte i) (operandWord i) = .ok i := by
  cases i with
  | seed v x =>
    obtain ⟨hop, hp, hv⟩ := seed_fields v x
    exact decode_of_select (by rw [hop, hp, hv]; rfl) (.inl hop) (.inr hp) (Laws.TableRow.seed v x).2
  | xform p b =>
    obtain ⟨hop, hp, hv⟩ := xform_fields p b
    refine decode_of_select ?_ (.inr hv) (.inl hop) (Laws.TableRow.xform p b).2
    rw [hop, hp, hv]
    exact congrArg (fun x => some (Instr.xform p x)) (lowByte_zext32 b)
  | score c =>
    obtain ⟨hop, hp, hv⟩ := score_fields c
    refine decode_of_select ?_ (.inr hv) (.inr hp) (Laws.TableRow.score c).2
    rw [hop, hp, hv]
    exact congrArg (fun x => some (Instr.score x)) (lowByte_zext32 c)
  | nop => rfl
  | gen => rfl
  | sclr => rfl
  | rddiff => rfl
  | rdzeros => rfl
  | rdmatch => rfl
  | rdflags => rfl
  | rdstate => rfl
  | rdstat => rfl
  | cfg bits =>
    obtain ⟨hop, hp, hv⟩ := cfg_fields bits
    exact decode_of_select (by rw [hop, hp, hv]; rfl) (.inr hv) (.inr hp) (Laws.TableRow.cfg bits).2
  | rdcnt => rfl
  | rdlen => rfl

namespace Machine

theorem step_ofInstr (i : Instr) (s : State) (rest : List HostInput) :
    step (s.withInputs (HostInput.ofInstr i :: rest)) = exec i (s.withInputs rest) := by
  show serveCommand (commandByte i) (operandWord i) (s.withInputs rest) = exec i (s.withInputs rest)
  rw [serveCommand, decode_commandByte_operandWord]

theorem run_succ_of_step {M : Host.Core} {s t : M.State} (h : M.step s = .next t) (k : Nat) :
    M.run (k + 1) s = M.run k t := by
  rw [Host.Core.run, h]

/-- Every command goes on to a next state and answers the host. -/
theorem exec_answers (i : Instr) (s : State) : ∃ t r, exec i s = .next t ∧ t.response = some r := by
  obtain ⟨t, ht, ⟨e, rfl⟩ | ⟨hok, -⟩⟩ := exec_cases i s
  · exact ⟨_, _, ht, rfl⟩
  · obtain ⟨r, hr, -⟩ := Option.map_eq_some_iff.1 hok
    exact ⟨t, r, ht, hr⟩

/-- Settles O36, by induction on the list of commands: the first step executes the first command, and leaves the
encodings of the others waiting. -/
theorem sessionIsARunOfSteps : Obligations.SessionIsARunOfSteps := by
  intro is s rest
  induction is generalizing s with
  | nil => exact ⟨s, [], rfl, rfl, rfl⟩
  | cons i is ih =>
    obtain ⟨t, r, ht, hr⟩ := exec_answers i s
    obtain ⟨u, rs, hsession, hlength, hrun⟩ := ih t
    have first_step : core.step (s.withInputs (HostInput.ofInstr i :: (is.map HostInput.ofInstr ++ rest))) =
        .next (t.withInputs (is.map HostInput.ofInstr ++ rest)) :=
      (step_ofInstr i s _).trans (exec_withInputs ht _)
    refine ⟨u, r :: rs, session_cons ht hr hsession, by simp [hlength], ?_⟩
    exact (run_succ_of_step (M := core) first_step is.length).trans hrun

end Machine
end Sys2Proof
end

section
/-! Commands that only read, and commands that step the generator once (O31). -/

namespace Sys2Proof.Machine

theorem State.raise_outcome (s : State) (e : ErrCode) : (s.raise e).outcome = some (.error e) := rfl

/-- A read that completes leaves a response and nothing else (20_memory.md R57). -/
theorem completes_of_isRead {i : Instr} {s t : State} (hread : isRead i = true) (h : Completes i s t) :
    t = { s with response := t.response } := by
  cases i with
  | rddiff | rdzeros | rdmatch | rdflags | rdstate | rdstat | rdcnt | rdlen => exact h
  | nop | seed | gen | sclr | score | xform | cfg => cases hread

/-- GEN, SCORE and XFORM take one generator step when they complete (40_keystream.md R102). -/
theorem genState_of_stepsGenerator {i : Instr} {s t : State} (hsteps : stepsGenerator i = true)
    (h : Completes i s t) : t.genState = xs s.genState := by
  cases i with
  | gen | xform =>
    obtain ⟨-, ht⟩ := h
    rw [ht]
  | score =>
    obtain ⟨-, -, ht⟩ := h
    rw [ht]
  | nop | seed | sclr | rddiff | rdzeros | rdmatch | rdflags | rdstate | rdstat | cfg | rdcnt | rdlen => cases hsteps

/-- Settles O31: a command raises an error, which changes the error record only, or completes with its own effect. -/
theorem readsHaveNoSideEffects : Obligations.ReadsHaveNoSideEffects := by
  refine ⟨fun i s hread => ?_, fun i s hsteps => ?_⟩ <;>
    obtain ⟨t, ht, ⟨e, rfl⟩ | ⟨hok, hcompletes⟩⟩ := exec_cases i s
  · exact ⟨_, ht, .inr ⟨e, s.raise_outcome e, s.raise_eq_raised e⟩⟩
  · exact ⟨t, ht, .inl ⟨hok, completes_of_isRead hread hcompletes⟩⟩
  · exact ⟨_, ht, fun hok => by simp [State.raise_outcome] at hok⟩
  · exact ⟨t, ht, fun _ => genState_of_stepsGenerator hsteps hcompletes⟩

end Sys2Proof.Machine
end

section
/-! A bank of lanes (O47): one lane's step goes on and touches no other lane. -/

namespace Sys2Proof.Machine

/-- No step stops the block (60_exceptions.md R210; log entry 11). -/
theorem step_goes_on (s : State) : ∃ t, step s = .next t := by
  obtain ⟨-, h⟩ | ⟨rest, -, h⟩ | ⟨_, _, rest, i, -, -, h⟩ | ⟨_, _, rest, e, -, -, h⟩ := step_cases s
  · exact ⟨_, h⟩
  · exact ⟨_, h⟩
  · obtain ⟨t, ht, -⟩ := exec_cases i (s.withInputs rest)
    exact ⟨t, h.trans ht⟩
  · exact ⟨_, h⟩

theorem stepLane_of_step {n : Nat} {k : Fin n} {ls : Lanes n} {t : State} (h : step ls[k] = .next t) :
    stepLane k ls = .next (ls.set k t) := by
  rw [stepLane, h]

theorem runLanes_cons_of_step {n : Nat} {k : Fin n} {ls : Lanes n} {t : State} (h : step ls[k] = .next t)
    (ks : List (Fin n)) : runLanes (k :: ks) ls = runLanes ks (ls.set k t) := by
  rw [runLanes, stepLane_of_step h]

/-- Settles O47, by induction on the schedule: its first step is the first of the lane it moves, and every other lane
still stands where it was. -/
theorem lanesAreIndependent : Obligations.LanesAreIndependent := by
  intro n ks ls
  induction ks generalizing ls with
  | nil => exact ⟨ls, rfl, fun _ => rfl⟩
  | cons k ks ih =>
    obtain ⟨t, ht⟩ := step_goes_on ls[k]
    obtain ⟨ms, hrun, hlanes⟩ := ih (ls.set k t)
    refine ⟨ms, (runLanes_cons_of_step ht ks).trans hrun, fun j => ?_⟩
    have own_run := hlanes j
    by_cases hj : k = j
    · subst hj
      have moved : (ls.set k t)[k] = t := Vector.getElem_set_self k.isLt
      rw [moved] at own_run
      rw [List.count_cons_self, run_succ_of_step (M := core) ht, own_run]
    · have untouched : (ls.set k t)[j] = ls[j] := Vector.getElem_set_ne k.isLt j.isLt (Fin.val_ne_of_ne hj)
      rw [untouched] at own_run
      rw [List.count_cons_of_ne hj, own_run]

end Sys2Proof.Machine
end

section
/-! Decoding and encoding are inverse to each other (O2, O3): a byte is its three fields, and a selected command's
encoding holds the fields and the operand it was selected by. -/

namespace Sys2Proof

open Machine

/-- OP, P and V are all of the command byte (30_encoding.md R71). -/
theorem byte_eq_of_fields {a b : Byte} (hop : opField a = opField b) (hp : pField a = pField b)
    (hv : vField a = vField b) : a = b := by
  rw [← BitVec.toNat_inj] at *
  rw [opField_toNat, opField_toNat] at hop
  rw [pField_toNat, pField_toNat] at hp
  rw [vField_toNat, vField_toNat] at hv
  omega

/-- A form-B8 operand with its unused bits 0 is its byte, zero-extended. -/
theorem zext32_lowByte {opd : Word} (h : opd >>> 8 = 0#32) : zext32 (lowByte opd) = opd := by
  have high := (highBits_eq_zero_iff opd).1 h
  apply BitVec.eq_of_toNat_eq
  rw [toNat_zext32, toNat_lowByte]
  omega

/-- A selected command's encoding holds what selected it: the opcode, the field if it carries one, the operand bits of
its form (30_encoding.md R73, R75). -/
theorem encode_of_select {op : BitVec 5} {p : BitVec 1} {v : BitVec 2} {opd : Word} {i : Instr}
    (h : select op p v opd = some i) :
    opField (commandByte i) = op ∧ pField (commandByte i) = (if op = 5#5 then p else 0#1) ∧
    vField (commandByte i) = (if op = 1#5 then v else 0#2) ∧
    (reservedBits (opForm op) opd = 0#32 → operandWord i = opd) := by
  have hop : op = BitVec.ofNat 5 op.toNat := by simp
  unfold select at h
  split at h <;> rename_i hn <;> cases h <;> rw [hn] at hop <;> subst hop
  case h_2 => -- SEED
    obtain ⟨iop, ip, iv⟩ := seed_fields v opd
    exact ⟨iop, ip, iv, fun _ => rfl⟩
  case h_5 => -- SCORE
    obtain ⟨iop, ip, iv⟩ := score_fields (lowByte opd)
    exact ⟨iop, ip, iv, zext32_lowByte⟩
  case h_6 => -- XFORM
    obtain ⟨iop, ip, iv⟩ := xform_fields p (lowByte opd)
    exact ⟨iop, ip, iv, zext32_lowByte⟩
  case h_13 => -- CFG
    obtain ⟨iop, ip, iv⟩ := cfg_fields opd
    exact ⟨iop, ip, iv, fun _ => rfl⟩
  -- the commands of form NONE
  all_goals exact ⟨rfl, rfl, rfl, Eq.symm⟩

/-- Settles O2: each command's encoding has the fields and the form that select it. -/
theorem decodeOfEncodeIsTheCommand : Obligations.DecodeOfEncodeIsTheCommand :=
  decode_commandByte_operandWord

/-- Settles O3: the fields and operand bits that the command does not carry were checked to be 0, so no bit of the word
is dropped. -/
theorem encodeOfDecodeIsTheWord : Obligations.EncodeOfDecodeIsTheWord := by
  intro cmd opd i h
  obtain ⟨hselect, hv, hp, hr⟩ := decode_ok h
  obtain ⟨iop, ip, iv, iopd⟩ := encode_of_select hselect
  have p_checked : (if opField cmd = 5#5 then pField cmd else 0#1) = pField cmd :=
    ite_eq_left_iff.2 fun hop => (hp.resolve_left hop).symm
  have v_checked : (if opField cmd = 1#5 then vField cmd else 0#2) = vField cmd :=
    ite_eq_left_iff.2 fun hop => (hv.resolve_left hop).symm
  exact Prod.ext (byte_eq_of_fields iop (ip.trans p_checked) (iv.trans v_checked)) (iopd hr)

end Sys2Proof
end

section
/-! The illegal command bytes (O4), by the three ILLEGAL_CMD checks of 30_encoding.md R76 on the byte's number. -/

namespace Sys2Proof

open Machine

/-- The reserved opcodes, and only they, fail R76's first check. -/
theorem select_eq_none_iff (cmd : Byte) (opd : Word) :
    select (opField cmd) (pField cmd) (vField cmd) opd = none ↔ 15 ≤ cmd.toNat / 8 := by
  refine ⟨fun hnone => ?_, fun hop => ?_⟩
  · by_contra hop
    obtain ⟨i, hi⟩ := select_isSome cmd opd (by omega)
    cases hnone.symm.trans hi
  · unfold select
    rw [opField_toNat]
    split
    case h_16 => rfl -- opcodes 15..31
    all_goals omega

/-- R77's list of the illegal command bytes. -/
abbrev IllegalByte (cmd : Byte) : Prop :=
  15 ≤ cmd.toNat / 8 ∨ (cmd.toNat / 8 ≠ 1 ∧ cmd.toNat % 4 ≠ 0) ∨ (cmd.toNat / 8 ≠ 5 ∧ cmd.toNat / 4 % 2 = 1)

/-- R77's list is the three ILLEGAL_CMD checks of R76 on the fields. -/
theorem illegalByte_iff (cmd : Byte) (opd : Word) :
    IllegalByte cmd ↔ select (opField cmd) (pField cmd) (vField cmd) opd = none ∨
      (opField cmd ≠ 1#5 ∧ vField cmd ≠ 0#2) ∨ (opField cmd ≠ 5#5 ∧ pField cmd ≠ 0#1) := by
  have not_seed := (opField_eq_iff cmd (k := 1) (by decide)).not
  have not_xform := (opField_eq_iff cmd (k := 5) (by decide)).not
  have p_set := (pField_eq_zero_iff cmd).not.trans Nat.mod_two_ne_zero
  rw [select_eq_none_iff, and_congr not_seed (vField_eq_zero_iff cmd).not, and_congr not_xform p_set]

theorem decode_eq_illegalCmd_iff (cmd : Byte) (opd : Word) :
    decode cmd opd = .error .illegalCmd ↔ IllegalByte cmd := by
  rw [illegalByte_iff cmd opd]
  unfold decode
  cases select (opField cmd) (pField cmd) (vField cmd) opd with
  | none => simp
  | some i =>
    split_ifs with hv hp
    · exact iff_of_true rfl (.inr (.inl hv))
    · exact iff_of_true rfl (.inr (.inr hp))
    all_goals exact iff_of_false (by simp) (not_or.2 ⟨nofun, not_or.2 ⟨hv, hp⟩⟩)

theorem illegal_eq (cmd : Byte) (opd : Word) : Spec.illegal cmd opd = decide (IllegalByte cmd) := by
  rw [Bool.eq_iff_iff, decide_eq_true_iff, ← decode_eq_illegalCmd_iff cmd opd]
  unfold Spec.illegal
  split
  next h => exact iff_of_true rfl h
  next h => exact iff_of_false Bool.false_ne_true h

theorem illegalByte_counts :
    (Spec.commandBytes.filter fun b => decide (IllegalByte b)).length = 237 ∧
    (Spec.commandBytes.filter fun b => decide (IllegalByte b) && decide (b.toNat / 8 ≤ 14)).length = 101 ∧
    (Spec.commandBytes.filter fun b => decide (IllegalByte b) && decide (15 ≤ b.toNat / 8)).length = 136 :=
  ⟨rfl, rfl, rfl⟩

theorem commandByte_mem_legalBytes {i : Instr} (h : i.wf = true) : commandByte i ∈ Spec.legalBytes := by
  cases i with
  | seed v x =>
    have named : ∀ v, variantNamed v = true → (0x08#8 ||| v.setWidth 8) ∈ Spec.legalBytes := by decide
    exact named v h
  | xform p b =>
    have either : ∀ p : BitVec 1, (0x28#8 ||| (p.setWidth 8 <<< 2)) ∈ Spec.legalBytes := by decide
    exact either p
  | nop | gen | sclr | score | rddiff | rdzeros | rdmatch | rdflags | rdstate | rdstat | cfg | rdcnt | rdlen =>
    simp [commandByte, Spec.legalBytes]

/-- The commands of the 18 legal bytes, each with operand 0. -/
def legalCommands : List Instr :=
  [.nop, .seed 0 0, .seed 1 0, .seed 2 0, .gen, .sclr, .score 0, .xform 0 0, .xform 1 0, .rddiff, .rdzeros, .rdmatch,
    .rdflags, .rdstate, .rdstat, .cfg 0, .rdcnt, .rdlen]

theorem map_commandByte_legalCommands : legalCommands.map commandByte = Spec.legalBytes := rfl

theorem wf_of_mem_legalCommands : ∀ i ∈ legalCommands, i.wf = true := by decide

theorem mem_legalBytes_iff (b : Byte) : b ∈ Spec.legalBytes ↔ ∃ opd i, decode b opd = .ok i ∧ i.wf = true := by
  refine ⟨fun hb => ?_, fun ⟨opd, i, hi, hwf⟩ => ?_⟩
  · rw [← map_commandByte_legalCommands] at hb
    obtain ⟨i, hi, rfl⟩ := List.mem_map.1 hb
    exact ⟨_, i, decodeOfEncodeIsTheCommand i, wf_of_mem_legalCommands i hi⟩
  · have hbyte : commandByte i = b := congrArg Prod.fst (encodeOfDecodeIsTheWord b opd i hi)
    exact hbyte ▸ commandByte_mem_legalBytes hwf

/-- Settles O4: the decoder raises ILLEGAL_CMD by R77's list, which is counted, and the legal bytes are the command bytes
of the well-formed commands; 0x0B is SEED 3's. -/
theorem illegalCommandBytes : Obligations.IllegalCommandBytes := by
  refine ⟨fun cmd opd => ?_, fun opd => ?_, mem_legalBytes_iff, rfl,
    fun opd s => ⟨decodeOfEncodeIsTheCommand (.seed 3 opd), ?_⟩⟩
  · rw [illegal_eq, decide_eq_true_iff]
  · simp only [illegal_eq]
    exact illegalByte_counts
  · rw [← State.raise_eq_raised]
    exact execSeed_of_no_offset (x := opd) offset_three

end Sys2Proof
end

section
/-! Fixed words of the opcode map (O1). -/

namespace Sys2Proof

/-- Settles O1: each of the seven words is its command's encoding, and the other three fail one check each. -/
theorem opcodeMapWordsDecode : Obligations.OpcodeMapWordsDecode :=
  ⟨decodeOfEncodeIsTheCommand (.seed 2 0x2A), decodeOfEncodeIsTheCommand .gen, decodeOfEncodeIsTheCommand (.score 0x9B),
    decodeOfEncodeIsTheCommand (.xform 1 0x42), decodeOfEncodeIsTheCommand .rdflags, decodeOfEncodeIsTheCommand .rdstat,
    decodeOfEncodeIsTheCommand (.cfg 0x20), (decode_eq_illegalCmd_iff _ _).2 (by decide),
    (decode_eq_illegalCmd_iff _ _).2 (by decide), rfl⟩

end Sys2Proof
end

section
/-! A step serves the first interaction waiting (O5). -/

namespace Sys2Proof.Machine

theorem step_of_inputs {s : State} {x : HostInput} {rest : List HostInput} (h : s.inputs = x :: rest) :
    step s = serveInput x (s.withInputs rest) := by
  rw [step, serveNext, h]

theorem serveCommand_of_ok {cmd : Byte} {opd : Word} {i : Instr} (h : decode cmd opd = .ok i) (s : State) :
    serveCommand cmd opd s = exec i s := by
  rw [serveCommand, h]

theorem serveCommand_of_error {cmd : Byte} {opd : Word} {e : ErrCode} (h : decode cmd opd = .error e) (s : State) :
    serveCommand cmd opd s = .next (Spec.raised s e) := by
  rw [← State.raise_eq_raised, ← fail_eq, serveCommand, h]

/-- Settles O5: a command is served by what it decodes to, and a reset by the reset event. -/
theorem stepServesTheFirstInteraction : Obligations.StepServesTheFirstInteraction :=
  ⟨fun _ _ _ _ hinputs => ⟨step_of_inputs hinputs,
      fun _ hi => (step_of_inputs hinputs).trans (serveCommand_of_ok hi _),
      fun _ he => (step_of_inputs hinputs).trans (serveCommand_of_error he _)⟩,
    fun _ _ hinputs => step_of_inputs hinputs⟩

end Sys2Proof.Machine
end

section
/-! The decoder in three branches: illegal bytes, unused operand bits, the selected command. -/

namespace Sys2Proof

/-- Decoding once the opcode has selected a command (30_encoding.md R76), the ILLEGAL_CMD checks being R77's list. -/
theorem decode_eq_of_select {cmd : Byte} {opd : Word} {i : Instr}
    (h : select (opField cmd) (pField cmd) (vField cmd) opd = some i) :
    decode cmd opd =
      if IllegalByte cmd then .error .illegalCmd
      else if reservedBits (opForm (opField cmd)) opd ≠ 0#32 then .error .reservedOperand
      else .ok i := by
  split_ifs with hillegal hreserved
  · exact (decode_eq_illegalCmd_iff cmd opd).2 hillegal
  all_goals
    rw [illegalByte_iff cmd opd, not_or, not_or] at hillegal
    obtain ⟨-, hv, hp⟩ := hillegal
    simp [decode, h, hv, hp, hreserved]

theorem opForm_eq_none {op : BitVec 5} (h : opForm op = .none) : op ≠ 1#5 ∧ op ≠ 5#5 := by
  constructor <;> rintro rfl <;> exact absurd h (by decide)

/-- A command of form NONE carries no field and no operand, so every bit below its opcode must be 0 (R72). -/
theorem decode_eq_decodeNone {cmd : Byte} {opd : Word} {i : Instr}
    (h : select (opField cmd) (pField cmd) (vField cmd) opd = some i) (hform : opForm (opField cmd) = .none) :
    decode cmd opd = Spec.decodeNone i cmd opd := by
  obtain ⟨not_seed, not_xform⟩ := opForm_eq_none hform
  have mapped : ¬ 15 ≤ cmd.toNat / 8 := fun hop => by
    cases h.symm.trans ((select_eq_none_iff cmd opd).2 hop)
  rw [ne_eq, opField_eq_iff cmd (k := 1) (by decide)] at not_seed
  rw [ne_eq, opField_eq_iff cmd (k := 5) (by decide)] at not_xform
  have illegal_iff : IllegalByte cmd ↔ cmd.toNat % 8 ≠ 0 := by
    unfold IllegalByte
    omega
  rw [decode_eq_of_select h, hform, Spec.decodeNone]
  simp only [illegal_iff, reservedBits, ne_eq, word_eq_zero_iff]

theorem vField_eq_ofNat (cmd : Byte) : vField cmd = BitVec.ofNat 2 (cmd.toNat % 4) := by
  rw [← vField_toNat, BitVec.ofNat_toNat, BitVec.setWidth_eq]

theorem decode_of_seed_opcode {cmd : Byte} (opd : Word) (hop : cmd.toNat / 8 = 1) :
    decode cmd opd =
      if cmd.toNat / 4 % 2 = 1 then .error .illegalCmd else .ok (.seed (BitVec.ofNat 2 (cmd.toNat % 4)) opd) := by
  have field : opField cmd = 1#5 := (opField_eq_iff cmd (by decide)).2 hop
  have selects : select (opField cmd) (pField cmd) (vField cmd) opd = some (.seed (vField cmd) opd) := by
    rw [field]; rfl
  have illegal_iff : IllegalByte cmd ↔ cmd.toNat / 4 % 2 = 1 := by
    unfold IllegalByte
    omega
  have unreserved : reservedBits (opForm (opField cmd)) opd = 0#32 := by
    rw [field]; rfl
  rw [decode_eq_of_select selects, vField_eq_ofNat]
  simp only [illegal_iff, unreserved, ne_eq, not_true_eq_false, if_false]

theorem decode_of_gen_opcode {cmd : Byte} (opd : Word) (hop : cmd.toNat / 8 = 2) :
    decode cmd opd = Spec.decodeNone .gen cmd opd := by
  have field : opField cmd = 2#5 := (opField_eq_iff cmd (by decide)).2 hop
  exact decode_eq_decodeNone (by rw [field]; rfl) (by rw [field]; rfl)

end Sys2Proof
end

section
/-! SEED (O13, O40, O41): what it leaves, on naturals, is the table's offset plus the seed, normalised. -/

namespace Sys2Proof.Machine

/-- A row of R30's table, read on naturals, is the same row of the model's table. -/
theorem offset_of_offsets {v : BitVec 2} {off : Nat} (h : Spec.offsets[v.toNat]? = some off) :
    ∃ o : Word, offset v = some o ∧ o.toNat = off :=
  Option.map_eq_some_iff.1 ((offset_map_toNat v).trans h)

theorem exists_offsets_of_ne_three {v : BitVec 2} (h : v ≠ 3) : ∃ off, Spec.offsets[v.toNat]? = some off := by
  have rows : ∀ v : BitVec 2, v ≠ 3 → (Spec.offsets[v.toNat]?).isSome := by decide
  exact Option.isSome_iff_exists.1 (rows v h)

theorem seedState_lt (off value : Nat) : Spec.seedState off value < 2 ^ 32 := by
  unfold Spec.seedState
  split <;> omega

/-- Reducing the seed first does not change the sum modulo 2^32 (40_keystream.md R101). -/
theorem seedState_mod (off value : Nat) : Spec.seedState off (value % 2 ^ 32) = Spec.seedState off value := by
  simp only [Spec.seedState, Nat.mod_add_mod]

/-- Only the sum counts (40_keystream.md R106). -/
theorem seedState_zero_add (off value : Nat) : Spec.seedState 0 (value + off) = Spec.seedState off value := rfl

theorem normZero_add_eq_ofNat (x o : Word) :
    normZero (x + o) = BitVec.ofNat 32 (Spec.seedState o.toNat x.toNat) := by
  apply BitVec.eq_of_toNat_eq
  rw [BitVec.toNat_ofNat, Nat.mod_eq_of_lt (seedState_lt _ _), toNat_normZero, BitVec.toNat_add, Spec.seedState]

/-- SEED with a variant of the table completes from every state (40_keystream.md R100). -/
theorem exec_seed_of_offsets {v : BitVec 2} {off : Nat} (h : Spec.offsets[v.toNat]? = some off) (x : Word)
    (s : State) :
    exec (.seed v x) s = .next
      { s with
        genState := BitVec.ofNat 32 (Spec.seedState off x.toNat)
        vsel := v
        seeded := true
        response := some ⟨BitVec.ofNat 32 (Spec.seedState off x.toNat), .ok⟩ } := by
  obtain ⟨o, ho, rfl⟩ := offset_of_offsets h
  rw [← normZero_add_eq_ofNat]
  exact execSeed_of_offset ho x s

/-- Settles O13: the table's variants by `exec_seed_of_offsets`; variant id 3 has no row. -/
theorem seedLoadsTheGenerator : Obligations.SeedLoadsTheGenerator :=
  ⟨fun _ opd hop => decode_of_seed_opcode opd hop, fun _ x _ s hoff => exec_seed_of_offsets hoff x s,
    fun x s => (execSeed_of_no_offset (x := x) offset_three).trans (congrArg _ (s.raise_eq_raised .badVariant))⟩

/-- Settles O40: the operand holds the seed modulo 2^32, which has the same sum. -/
theorem wideSeedsLoseNothing : Obligations.WideSeedsLoseNothing := by
  intro v off value s hoff
  refine ⟨_, exec_seed_of_offsets hoff _ s, ?_⟩
  rw [BitVec.toNat_ofNat, BitVec.toNat_ofNat, seedState_mod, Nat.mod_eq_of_lt (seedState_lt _ _)]

/-- Two seeds with the same normalised sum leave the same state, and so the same keystream. -/
theorem keystreams_eq_of_seedState_eq {v v' : BitVec 2} {off off' : Nat} {x x' : Word}
    (h : Spec.offsets[v.toNat]? = some off) (h' : Spec.offsets[v'.toNat]? = some off')
    (hsum : Spec.seedState off x.toNat = Spec.seedState off' x'.toNat) (s : State) :
    ∃ t u, exec (.seed v x) s = .next t ∧ exec (.seed v' x') s = .next u ∧
      ∀ i, keystreamByte t.genState i = keystreamByte u.genState i :=
  ⟨_, _, exec_seed_of_offsets h x s, exec_seed_of_offsets h' x' s, fun i => by rw [hsum]⟩

/-- Settles O41: SEED 0 with x plus the offset has the same sum by definition, and the four examples have it by
computation. -/
theorem seedsWithTheSameSumAlias : Obligations.SeedsWithTheSameSumAlias := by
  refine ⟨fun v x off s hoff => ?_, fun p s hp => ?_⟩
  · refine keystreams_eq_of_seedState_eq (off' := 0) hoff rfl ?_ s
    rw [BitVec.toNat_ofNat, seedState_mod, seedState_zero_add]
  · simp only [List.mem_cons, List.not_mem_nil, or_false] at hp
    obtain rfl | rfl | rfl | rfl := hp <;> exact keystreams_eq_of_seedState_eq rfl rfl (by decide) s

end Sys2Proof.Machine
end

section
/-! GEN (O14) and the commands that step the generator (O32). -/

namespace Sys2Proof.Machine

theorem xs_eq_ofNat (w : Word) : xs w = BitVec.ofNat 32 (Spec.xorshift w.toNat) := by
  rw [← toNat_xs, BitVec.ofNat_toNat, BitVec.setWidth_eq]

theorem zext32_eq_ofNat (b : Byte) : zext32 b = BitVec.ofNat 32 b.toNat := by
  rw [BitVec.ofNat_toNat, zext32]

theorem State.toNat_nextByte (s : State) : s.nextByte.toNat = Spec.xorshift s.genState.toNat % 256 := by
  rw [State.nextByte, toNat_lowByte, toNat_xs]

/-- Settles O14: the updated state and its low byte, on naturals. -/
theorem genAnswersTheNextByte : Obligations.GenAnswersTheNextByte := by
  refine ⟨fun _ opd hop => decode_of_gen_opcode opd hop, fun s hseeded => ?_, fun s hunseeded => ?_⟩
  · rw [← xs_eq_ofNat, ← s.toNat_nextByte, ← zext32_eq_ofNat]
    exact execGen_of_seeded hseeded
  · rw [← State.raise_eq_raised]
    exact execGen_of_unseeded hunseeded

/-- A completed command other than SEED steps the generator once or leaves it (40_keystream.md R102). -/
theorem genState_of_completes {i : Instr} {s t : State} (hseed : Spec.notSeed i = true) (h : Completes i s t) :
    t.genState = if stepsGenerator i = true then xs s.genState else s.genState := by
  cases i with
  | seed => cases hseed
  | gen | score | xform => exact genState_of_stepsGenerator rfl h
  | cfg =>
    obtain ⟨-, ht⟩ := h
    rw [ht]; rfl
  | nop | sclr | rddiff | rdzeros | rdmatch | rdflags | rdstate | rdstat | rdcnt | rdlen =>
    rw [show t = _ from h]; rfl

/-- Settles O32: a raised error leaves the generator, and a completed command does what `genState_of_completes` says. -/
theorem onlyThreeCommandsStepTheGenerator : Obligations.OnlyThreeCommandsStepTheGenerator := by
  intro i s t h hseed
  obtain ⟨u, hu, hcases⟩ := exec_cases i s
  cases h.symm.trans hu
  obtain ⟨e, rfl⟩ | ⟨hok, hcompletes⟩ := hcases
  · simp [State.raise_outcome]
  · simp [hok, genState_of_completes hseed hcompletes]

end Sys2Proof.Machine
end

section
/-! The keystream along a session (O37, O38, O39): each command moves the generator on from where the last one left it,
so the three statements are inductions on the list of commands, for every seeded state. -/

namespace Sys2Proof.Machine

theorem keystreamState_xs (w : Word) (n : Nat) : keystreamState (xs w) n = keystreamState w (n + 1) := by
  rw [keystreamState_eq_iterate, keystreamState_eq_iterate, Function.iterate_succ_apply]

theorem keystreamByte_xs (w : Word) (i : Nat) : keystreamByte (xs w) i = keystreamByte w (i + 1) :=
  congrArg lowByte (keystreamState_xs w (i + 1))

theorem okBytes_cons (b : Byte) (bs : List Byte) : Spec.okBytes (b :: bs) = ⟨zext32 b, .ok⟩ :: Spec.okBytes bs := by
  rw [zext32_eq_ofNat]; rfl

/-- The keystream from a state is its next byte and the keystream from the state one step on. -/
theorem map_keystreamByte_range_succ (w : Word) (n : Nat) :
    (List.range (n + 1)).map (keystreamByte w) = lowByte (xs w) :: (List.range n).map (keystreamByte (xs w)) := by
  rw [List.range_succ_eq_map, List.map_cons, List.map_map]
  exact congrArg _ (List.map_congr_left fun i _ => (keystreamByte_xs w i).symm)

/-- GENs answer the keystream from the state they begin in (40_keystream.md R104). -/
theorem session_replicate_gen (n : Nat) {s : State} (hseeded : s.seeded = true) :
    ∃ t, session (List.replicate n .gen) s =
        some (t, Spec.okBytes ((List.range n).map (keystreamByte s.genState))) ∧
      t.genState = keystreamState s.genState n := by
  induction n generalizing s with
  | zero => exact ⟨s, rfl, rfl⟩
  | succ n ih =>
    obtain ⟨t, hsession, hgen⟩ := ih (s := s.advance.respond (zext32 s.nextByte)) hseeded
    refine ⟨t, ?_, hgen.trans (keystreamState_xs _ n)⟩
    rw [List.replicate_succ, map_keystreamByte_range_succ, okBytes_cons]
    exact session_cons (execGen_of_seeded hseeded) rfl hsession

/-- Settles O37: SEED leaves S_0, from which the GENs go on. -/
theorem gensAnswerTheKeystream : Obligations.GensAnswerTheKeystream := by
  intro v x off n s hoff s0
  obtain ⟨t, hsession, hgen⟩ := session_replicate_gen n
    (s := { s with genState := s0, vsel := v, seeded := true, response := some ⟨s0, .ok⟩ }) rfl
  exact ⟨t, session_cons (exec_seed_of_offsets hoff x s) rfl hsession, hgen⟩

/-- The generator moves on by the number of stepping commands that raised no error (40_keystream.md R104). -/
theorem session_genState {is : List Instr} (hseed : ∀ i ∈ is, Spec.notSeed i = true) (s : State) :
    ∃ t rs, session is s = some (t, rs) ∧ t.genState = keystreamState s.genState (Spec.stepsTaken is rs) := by
  induction is generalizing s with
  | nil => exact ⟨s, [], rfl, rfl⟩
  | cons i is ih =>
    obtain ⟨first, others⟩ := List.forall_mem_cons.1 hseed
    obtain ⟨t, r, ht, hr⟩ := exec_answers i s
    obtain ⟨u, rs, hsession, hgen⟩ := ih others t
    refine ⟨u, r :: rs, session_cons ht hr hsession, ?_⟩
    have one_step := onlyThreeCommandsStepTheGenerator i s t ht first
    have outcome_ok : t.outcome = some .ok ↔ r.outcome = .ok := by simp [State.outcome, hr]
    simp only [outcome_ok] at one_step
    rw [hgen, one_step, Spec.stepsTaken]
    split
    · rw [keystreamState_xs, Nat.add_comm]
    · rw [Nat.zero_add]

/-- Settles O38: SEED leaves S_0, from which the other commands go on. -/
theorem generatorPositionCountsSteps : Obligations.GeneratorPositionCountsSteps := by
  intro v x off is s hoff hseed
  obtain ⟨t, rs, hsession, hgen⟩ := session_genState hseed _
  exact ⟨t, _, rs, session_cons (exec_seed_of_offsets hoff x s) rfl hsession, hgen⟩

/-- Two seeded states with the generator in the same place. -/
def SameGenerator (s s' : State) : Prop := s.seeded = true ∧ s'.seeded = true ∧ s.genState = s'.genState

/-- NOP, GEN, XFORM and RDSTATE read nothing but the generator, and move it alike. -/
theorem exec_sameGenerator {i : Instr} {s s' : State} (hi : Spec.generatorOnly i = true) (h : SameGenerator s s') :
    ∃ t t' r, exec i s = .next t ∧ exec i s' = .next t' ∧ t.response = some r ∧ t'.response = some r ∧
      SameGenerator t t' := by
  obtain ⟨hs, hs', hgen⟩ := h
  have advanced : xs s.genState = xs s'.genState := congrArg xs hgen
  have same_byte : s.nextByte = s'.nextByte := congrArg lowByte advanced
  cases i with
  | nop => exact ⟨_, _, _, rfl, rfl, rfl, rfl, hs, hs', hgen⟩
  | gen =>
    exact ⟨_, _, _, execGen_of_seeded hs, execGen_of_seeded hs', rfl, by rw [same_byte]; rfl, hs, hs', advanced⟩
  | xform p b =>
    exact ⟨_, _, _, execXform_of_seeded hs, execXform_of_seeded hs', rfl, by rw [same_byte]; rfl, hs, hs', advanced⟩
  | rdstate => exact ⟨_, _, _, rfl, rfl, rfl, by rw [hgen]; rfl, hs, hs', hgen⟩
  | seed | sclr | score | rddiff | rdzeros | rdmatch | rdflags | rdstat | cfg | rdcnt | rdlen => cases hi

/-- A SEED brings any two states to the same generator state (40_keystream.md R105). -/
theorem exec_seed_sameGenerator {v : BitVec 2} (hv : v ≠ 3) (x : Word) (s s' : State) :
    ∃ t t' r, exec (.seed v x) s = .next t ∧ exec (.seed v x) s' = .next t' ∧ t.response = some r ∧
      t'.response = some r ∧ SameGenerator t t' := by
  obtain ⟨off, hoff⟩ := exists_offsets_of_ne_three hv
  exact ⟨_, _, _, exec_seed_of_offsets hoff x s, exec_seed_of_offsets hoff x s', rfl, rfl, rfl, rfl, rfl⟩

theorem session_sameGenerator {is : List Instr} (his : ∀ i ∈ is, Spec.generatorOnly i = true) {s s' : State}
    (h : SameGenerator s s') :
    ∃ t t' rs, session is s = some (t, rs) ∧ session is s' = some (t', rs) ∧ SameGenerator t t' := by
  induction is generalizing s s' with
  | nil => exact ⟨s, s', [], rfl, rfl, h⟩
  | cons i is ih =>
    obtain ⟨first, others⟩ := List.forall_mem_cons.1 his
    obtain ⟨t, t', r, ht, ht', hr, hr', hsame⟩ := exec_sameGenerator first h
    obtain ⟨u, u', rs, hsession, hsession', hsame⟩ := ih others hsame
    exact ⟨u, u', r :: rs, session_cons ht hr hsession, session_cons ht' hr' hsession', hsame⟩

/-- Settles O39: after the SEED the two generators stand in the same place, and stay together. -/
theorem keystreamDependsOnTheSeedOnly : Obligations.KeystreamDependsOnTheSeedOnly := by
  intro v x is s s' hv his
  obtain ⟨t, t', r, ht, ht', hr, hr', hseed⟩ := exec_seed_sameGenerator hv x s s'
  obtain ⟨u, u', rs, hsession, hsession', -, -, hgen⟩ := session_sameGenerator his hseed
  exact ⟨u, u', r :: rs, session_cons ht hr hsession, session_cons ht' hr' hsession', hgen⟩

end Sys2Proof.Machine
end

section
/-! Decoding of the commands without a field, by opcode, as the per-command statements spell it. -/

namespace Sys2Proof

/-- A command of form NONE, by its opcode's number. -/
theorem decode_of_none_opcode {k : Nat} (hk : k < 32) {i : Instr}
    (hselect : ∀ p v opd, select (BitVec.ofNat 5 k) p v opd = some i) (hform : opForm (BitVec.ofNat 5 k) = .none)
    {cmd : Byte} (opd : Word) (hop : cmd.toNat / 8 = k) : decode cmd opd = Spec.decodeNone i cmd opd := by
  have field : opField cmd = BitVec.ofNat 5 k := (opField_eq_iff cmd hk).2 hop
  exact decode_eq_decodeNone (by rw [field, hselect]) (by rw [field, hform])

/-- Outside SEED and XFORM, a byte with an opcode of the map is legal only if it has no bit below the opcode (R77). -/
theorem illegalByte_iff_of_plain_opcode {cmd : Byte} (hmap : cmd.toNat / 8 < 15) (hseed : cmd.toNat / 8 ≠ 1)
    (hxform : cmd.toNat / 8 ≠ 5) : IllegalByte cmd ↔ cmd.toNat % 8 ≠ 0 := by
  unfold IllegalByte
  omega

theorem lowByte_eq_ofNat (w : Word) : lowByte w = BitVec.ofNat 8 w.toNat := by
  apply BitVec.eq_of_toNat_eq
  rw [toNat_lowByte, BitVec.toNat_ofNat]

theorem decode_of_score_opcode {cmd : Byte} (opd : Word) (hop : cmd.toNat / 8 = 4) :
    decode cmd opd =
      if cmd.toNat % 8 ≠ 0 then .error .illegalCmd
      else if opd.toNat / 256 ≠ 0 then .error .reservedOperand
      else .ok (.score (BitVec.ofNat 8 opd.toNat)) := by
  have field : opField cmd = 4#5 := (opField_eq_iff cmd (by decide)).2 hop
  have selects : select (opField cmd) (pField cmd) (vField cmd) opd = some (.score (lowByte opd)) := by
    rw [field]; rfl
  have reserved : reservedBits (opForm (opField cmd)) opd = opd >>> 8 := by
    rw [field]; rfl
  have illegal_iff := illegalByte_iff_of_plain_opcode (cmd := cmd) (by omega) (by omega) (by omega)
  rw [decode_eq_of_select selects, reserved, lowByte_eq_ofNat]
  simp only [illegal_iff, ne_eq, highBits_eq_zero_iff]

theorem decode_of_cfg_opcode {cmd : Byte} (opd : Word) (hop : cmd.toNat / 8 = 12) :
    decode cmd opd = if cmd.toNat % 8 ≠ 0 then .error .illegalCmd else .ok (.cfg opd) := by
  have field : opField cmd = 12#5 := (opField_eq_iff cmd (by decide)).2 hop
  have selects : select (opField cmd) (pField cmd) (vField cmd) opd = some (.cfg opd) := by
    rw [field]; rfl
  have unreserved : reservedBits (opForm (opField cmd)) opd = 0#32 := by
    rw [field]; rfl
  have illegal_iff := illegalByte_iff_of_plain_opcode (cmd := cmd) (by omega) (by omega) (by omega)
  rw [decode_eq_of_select selects, unreserved]
  simp only [illegal_iff, ne_eq, not_true_eq_false, if_false]

end Sys2Proof
end

section
/-! Clearing and configuring the scorecard (O15, O25), and the reads of its registers (O26). -/

namespace Sys2Proof.Machine

/-- Settles O15. -/
theorem sclrClearsTheScorecard : Obligations.SclrClearsTheScorecard :=
  ⟨fun _ opd hop => decode_of_none_opcode (k := 3) (by decide) (fun _ _ _ => rfl) rfl opd hop, fun _ => rfl⟩

/-- Settles O26. -/
theorem rdcntAndRdlenReadTheirRegisters : Obligations.RdcntAndRdlenReadTheirRegisters :=
  ⟨fun _ opd hop => decode_of_none_opcode (k := 13) (by decide) (fun _ _ _ => rfl) rfl opd hop,
    fun _ opd hop => decode_of_none_opcode (k := 14) (by decide) (fun _ _ _ => rfl) rfl opd hop,
    fun _ => rfl, fun _ => rfl⟩

theorem legalLength_iff_toNat (bits : Word) : legalLength bits = true ↔ bits.toNat ≠ 0 ∧ bits.toNat % 8 = 0 := by
  rw [legalLength_iff, ne_eq, word_eq_zero_iff]

/-- Settles O25: CFG's check, on naturals, decides between the two cases. -/
theorem cfgSetsTheLength : Obligations.CfgSetsTheLength := by
  refine ⟨fun _ opd hop => decode_of_cfg_opcode opd hop, fun bits s hpos height => ?_, fun bits s hbad => ?_⟩
  · exact execCfg_of_legal ((legalLength_iff_toNat bits).2 ⟨hpos, height⟩)
  · have illegal : legalLength bits = false := by
      rw [← Bool.not_eq_true, legalLength_iff_toNat]
      omega
    rw [← State.raise_eq_raised]
    exact execCfg_of_illegal illegal

end Sys2Proof.Machine
end

section
/-! Polarity and match as comparisons of 2 * DIFF with L (O29). -/

namespace Sys2Proof.Machine

theorem pol_eq_ite (l d : Nat) : pol l d = if l < 2 * d then 1#1 else 0#1 := by
  have tie : d ≤ zerosOf l d ↔ ¬ l < 2 * d := by
    unfold zerosOf
    omega
  simp only [pol, tie, ite_not]

theorem matchOf_eq_ite (l d : Nat) : matchOf l d = if l < 2 * d then d else l - d := by
  rw [matchOf_eq_max]
  split <;> omega

theorem pol_eq_zero_iff (l d : Nat) : pol l d = 0 ↔ 2 * d ≤ l := by
  rw [pol_eq_ite]
  split <;> simp <;> omega

theorem pol_eq_one_iff (l d : Nat) : pol l d = 1 ↔ l < 2 * d := by
  rw [pol_eq_ite]
  split <;> simp <;> omega

/-- Settles O29: POL and MATCH make the same comparison, so the polarity says which count MATCH takes. -/
theorem polarityLaws : Obligations.PolarityLaws := by
  intro l d _
  refine ⟨pol_eq_zero_iff l d, pol_eq_one_iff l d, fun hpol => ?_, fun hpol => ?_, le_two_mul_matchOf l d⟩
  · rw [matchOf_eq_ite, if_neg (Nat.not_lt.2 ((pol_eq_zero_iff l d).1 hpol))]
  · rw [matchOf_eq_ite, if_pos ((pol_eq_one_iff l d).1 hpol)]

end Sys2Proof.Machine
end

section
/-! The reads of a finished score (O19 to O22): each completes with its value for a whole chunk, and raises NOT_READY
otherwise. -/

namespace Sys2Proof.Machine

theorem readResult_of_whole_chunk {s : State} (h : s.cnt.toNat = s.len.toNat / 8) (v : Word) :
    readResult v s = .next (s.respond v) :=
  readResult_of_done (s.done_iff.2 h)

theorem readResult_of_partial_chunk {s : State} (h : s.cnt.toNat ≠ s.len.toNat / 8) (v : Word) :
    readResult v s = .next (Spec.raised s .notReady) := by
  rw [← State.raise_eq_raised]
  exact readResult_of_not_done (s.done_eq_false_iff.2 h)

theorem State.CountsBounded.diff_le_len {s : State} (h : s.CountsBounded) : s.diff.toNat ≤ s.len.toNat :=
  Nat.le_trans h.1 h.2

/-- Where DIFF is at most L, the subtraction of the registers does not borrow. -/
theorem ofNat_zerosOf {l d : Word} (h : d.toNat ≤ l.toNat) : BitVec.ofNat 32 (zerosOf l.toNat d.toNat) = l - d := by
  rw [zerosOf, ← BitVec.toNat_sub_of_le h, BitVec.ofNat_toNat, BitVec.setWidth_eq]

theorem ofNat_matchOf {l d : Word} (h : d.toNat ≤ l.toNat) :
    BitVec.ofNat 32 (matchOf l.toNat d.toNat) = if l.toNat < 2 * d.toNat then d else l - d := by
  rw [matchOf_eq_ite]
  split
  · rw [BitVec.ofNat_toNat, BitVec.setWidth_eq]
  · exact ofNat_zerosOf h

/-- The flags byte is VSEL with the polarity at weight 4 (41_scorecard.md R127). -/
theorem zext32_flagsByte (p : BitVec 1) (v : BitVec 2) :
    zext32 (flagsByte p v) = BitVec.ofNat 32 (v.toNat + 4 * p.toNat) := by
  revert p v
  decide

theorem getLsbD_two_flagsByte (p : BitVec 1) (v : BitVec 2) :
    (zext32 (flagsByte p v)).getLsbD 2 = true ↔ p = 1 := by
  revert p v
  decide

/-- Settles O19. -/
theorem rddiffReadsTheDifference : Obligations.RddiffReadsTheDifference :=
  ⟨fun _ opd hop => decode_of_none_opcode (k := 6) (by decide) (fun _ _ _ => rfl) rfl opd hop,
    fun _ hwhole => readResult_of_whole_chunk hwhole _, fun _ hpartial => readResult_of_partial_chunk hpartial _⟩

/-- Settles O20: DIFF is at most L, so the answer is the exact difference. -/
theorem rdzerosReadsTheAgreement : Obligations.RdzerosReadsTheAgreement := by
  refine ⟨fun _ opd hop => decode_of_none_opcode (k := 7) (by decide) (fun _ _ _ => rfl) rfl opd hop,
    fun s hcounts hwhole => ⟨hcounts.diff_le_len, ?_⟩, fun _ hpartial => readResult_of_partial_chunk hpartial _⟩
  rw [← ofNat_zerosOf hcounts.diff_le_len]
  exact readResult_of_whole_chunk hwhole _

/-- Settles O21: MATCH as a comparison, with the exact difference. -/
theorem rdmatchReadsTheLargerCount : Obligations.RdmatchReadsTheLargerCount := by
  refine ⟨fun _ opd hop => decode_of_none_opcode (k := 8) (by decide) (fun _ _ _ => rfl) rfl opd hop,
    fun s hcounts hwhole => ?_, fun _ hpartial => readResult_of_partial_chunk hpartial _⟩
  rw [← ofNat_matchOf hcounts.diff_le_len]
  exact readResult_of_whole_chunk hwhole _

/-- Settles O22: the polarity is the comparison, and the flags byte gives it weight 4. -/
theorem rdflagsReadsVariantAndPolarity : Obligations.RdflagsReadsVariantAndPolarity := by
  refine ⟨fun _ opd hop => decode_of_none_opcode (k := 9) (by decide) (fun _ _ _ => rfl) rfl opd hop,
    fun s hwhole => ?_, fun _ hpartial => readResult_of_partial_chunk hpartial _⟩
  have flags : zext32 (flagsByte s.polarity s.vsel) =
      BitVec.ofNat 32 (s.vsel.toNat + if s.len.toNat < 2 * s.diff.toNat then 4 else 0) := by
    rw [zext32_flagsByte, State.polarity, pol_eq_ite]
    split <;> rfl
  rw [← flags]
  exact readResult_of_whole_chunk hwhole _

end Sys2Proof.Machine
end

section
/-! SCORE (O16), and its counts in states of the invariant (O17). -/

namespace Sys2Proof.Machine

theorem State.nextByte_eq_ofNat (s : State) : s.nextByte = BitVec.ofNat 8 (Spec.xorshift s.genState.toNat) := by
  rw [State.nextByte, lowByte_eq_ofNat, toNat_xs]

/-- The registers' sums, modulo 2^32 in every state (log entry 6). -/
theorem State.countByte_eq_ofNat (s : State) (x : Byte) :
    s.countByte x =
      { s with
        diff := BitVec.ofNat 32 (s.diff.toNat + Spec.popcount x)
        cnt := BitVec.ofNat 32 (s.cnt.toNat + 1) } := by
  have diff_sum : s.diff + (popcnt x).setWidth 32 = BitVec.ofNat 32 (s.diff.toNat + Spec.popcount x) := by
    rw [BitVec.ofNat_add, BitVec.ofNat_toNat, BitVec.setWidth_eq, ← toNat_popcnt, BitVec.ofNat_toNat]
  have cnt_sum : s.cnt + 1#32 = BitVec.ofNat 32 (s.cnt.toNat + 1) := by
    rw [BitVec.ofNat_add, BitVec.ofNat_toNat, BitVec.setWidth_eq]
  rw [State.countByte, diff_sum, cnt_sum]

/-- Settles O16: the four registers that SCORE writes, on naturals, and its two errors in their order. -/
theorem scoreCountsTheDifferingBits : Obligations.ScoreCountsTheDifferingBits := by
  refine ⟨fun _ opd hop => decode_of_score_opcode opd hop, fun c s hseeded hpartial => ?_, fun c s hunseeded => ?_,
    fun c s hseeded hwhole => ?_⟩
  · have answer : zext32 (c ^^^ s.nextByte) =
        BitVec.ofNat 32 (c.toNat ^^^ Spec.xorshift s.genState.toNat % 256) := by
      rw [zext32_eq_ofNat, BitVec.toNat_xor, s.toNat_nextByte]
    rw [← answer, ← xs_eq_ofNat, ← s.nextByte_eq_ofNat]
    refine (execScore_of_ready hseeded (s.done_eq_false_iff.2 hpartial)).trans ?_
    rw [State.countByte_eq_ofNat]
    rfl
  · rw [← State.raise_eq_raised]
    exact execScore_of_unseeded hunseeded
  · rw [← State.raise_eq_raised]
    exact execScore_of_done hseeded (s.done_iff.2 hwhole)

/-- Within R41's bounds an unfinished chunk has room for a byte, so neither sum wraps (41_scorecard.md R130). -/
theorem State.CountsBounded.toNat_countByte {s : State} (hs : s.CountsBounded) (hd : s.done = false) (x : Byte) :
    (s.countByte x).diff.toNat = s.diff.toNat + Spec.popcount x ∧ (s.countByte x).cnt.toNat = s.cnt.toNat + 1 := by
  obtain ⟨hdiff, hcnt⟩ := hs
  have unfinished := s.done_eq_false_iff.1 hd
  have added := popcount_le_eight x
  have len_lt := s.len.isLt
  rw [State.countByte_eq_ofNat]
  simp only [BitVec.toNat_ofNat]
  omega

/-- Settles O17: the bounds of R41 keep the sums, the difference and the comparison exact. -/
theorem scoreArithmeticIsExact : Obligations.ScoreArithmeticIsExact := by
  refine ⟨fun c s hinv hseeded hpartial => ?_, fun s hinv hwhole => ?_, fun s _ hwhole => ?_⟩
  · obtain ⟨-, -, -, hcounts, -, -⟩ := hinv
    have hd : s.advance.done = false := s.done_eq_false_iff.2 hpartial
    have counted : s.advance.CountsBounded := hcounts
    obtain ⟨hdiff, hcnt⟩ := counted.toNat_countByte hd (c ^^^ s.nextByte)
    rw [← s.nextByte_eq_ofNat]
    exact ⟨_, execScore_of_ready hseeded hd, hdiff, hcnt, counted.countByte hd _⟩
  · obtain ⟨-, -, -, hcounts, -, -⟩ := hinv
    refine ⟨_, _, readResult_of_whole_chunk hwhole _, rfl, ?_⟩
    rw [ofNat_zerosOf hcounts.diff_le_len, BitVec.toNat_sub_of_le hcounts.diff_le_len]
    exact Nat.sub_add_cancel hcounts.diff_le_len
  · exact ⟨_, _, readResult_of_whole_chunk hwhole _, rfl, (getLsbD_two_flagsByte _ _).trans (pol_eq_one_iff _ _)⟩

end Sys2Proof.Machine
end

section
/-! A candidate's score (O42): SCOREs add up the differing bits of the chunk and the keystream, by induction on the
chunk; a SEED and a clearing command, in either order, make the counts begin at 0. -/

namespace Sys2Proof.Machine

theorem differingBits_xs (w : Word) (i : Nat) (c : List Byte) :
    Spec.differingBits (xs w) i c = Spec.differingBits w (i + 1) c := by
  induction c generalizing i with
  | nil => rfl
  | cons b c ih => rw [Spec.differingBits, Spec.differingBits, keystreamByte_xs, ih]

theorem maskedBytes_xs (m : Byte) (w : Word) (i : Nat) (c : List Byte) :
    Spec.maskedBytes m (xs w) i c = Spec.maskedBytes m w (i + 1) c := by
  induction c generalizing i with
  | nil => rfl
  | cons b c ih => rw [Spec.maskedBytes, Spec.maskedBytes, keystreamByte_xs, ih]

/-- The raw residual of a chunk is its first byte XOR the next keystream byte, and the residual from one step on. -/
theorem maskedBytes_zero_cons (s : State) (b : Byte) (c : List Byte) :
    Spec.maskedBytes 0 s.genState 0 (b :: c) =
      (b ^^^ s.nextByte) :: Spec.maskedBytes 0 (xs s.genState) 0 c := by
  rw [maskedBytes_xs, Spec.maskedBytes]
  exact congrArg (· :: _) BitVec.xor_zero

theorem differingBits_cons (s : State) (b : Byte) (c : List Byte) :
    Spec.differingBits s.genState 0 (b :: c) =
      Spec.popcount (b ^^^ s.nextByte) + Spec.differingBits (xs s.genState) 0 c := by
  rw [differingBits_xs]; rfl

/-- SCOREs with room for all their bytes complete, answer the raw residual and count it (41_scorecard.md R122, R126). -/
theorem session_map_score (c : List Byte) {s : State} (hseeded : s.seeded = true) (hcounts : s.CountsBounded)
    (room : s.cnt.toNat + c.length ≤ s.len.toNat / 8) :
    ∃ t, session (c.map .score) s = some (t, Spec.okBytes (Spec.maskedBytes 0 s.genState 0 c)) ∧
      t.diff.toNat = s.diff.toNat + Spec.differingBits s.genState 0 c ∧
      t.cnt.toNat = s.cnt.toNat + c.length ∧ t.len = s.len ∧ t.vsel = s.vsel ∧ t.CountsBounded := by
  induction c generalizing s with
  | nil => exact ⟨s, rfl, rfl, rfl, rfl, rfl, hcounts⟩
  | cons b c ih =>
    rw [List.length_cons] at room
    have unfinished : s.advance.done = false := s.done_eq_false_iff.2 (by omega)
    have stepped : s.advance.CountsBounded := hcounts
    have counted := stepped.countByte unfinished (b ^^^ s.nextByte)
    obtain ⟨hdiff, hcnt⟩ := stepped.toNat_countByte unfinished (b ^^^ s.nextByte)
    rw [State.advance_diff] at hdiff
    rw [State.advance_cnt] at hcnt
    obtain ⟨t, hsession, tdiff, tcnt, tlen, tvsel, tcounts⟩ :=
      ih (s := (s.advance.countByte (b ^^^ s.nextByte)).respond (zext32 (b ^^^ s.nextByte))) hseeded counted
        (by rw [State.respond_cnt, hcnt, State.respond_len, State.countByte_len, State.advance_len]; omega)
    rw [State.respond_diff, hdiff] at tdiff
    rw [State.respond_cnt, hcnt] at tcnt
    refine ⟨t, ?_, ?_, ?_, tlen, tvsel, tcounts⟩
    · rw [maskedBytes_zero_cons, okBytes_cons]
      exact session_cons (execScore_of_ready hseeded unfinished) rfl hsession
    · rw [tdiff, differingBits_cons, Nat.add_assoc]; rfl
    · rw [tcnt, List.length_cons]; omega

/-- What a SEED and a clearing command leave for the SCOREs of a candidate. -/
structure CandidateStart (v : BitVec 2) (s0 bits : Word) (t : State) : Prop where
  genState : t.genState = s0
  vsel : t.vsel = v
  seeded : t.seeded = true
  diff : t.diff = 0#32
  cnt : t.cnt = 0#32
  len : t.len = bits

theorem CandidateStart.countsBounded {v : BitVec 2} {s0 bits : Word} {t : State} (h : CandidateStart v s0 bits t) :
    t.CountsBounded := by
  simp [State.CountsBounded, h.diff, h.cnt]

/-- The SCOREs of a whole chunk, from such a start. -/
theorem CandidateStart.session_map_score {v : BitVec 2} {s0 bits : Word} {s : State}
    (start : CandidateStart v s0 bits s) {c : List Byte} (hbits : bits.toNat = 8 * c.length) :
    ∃ t, session (c.map .score) s = some (t, Spec.okBytes (Spec.maskedBytes 0 s0 0 c)) ∧
      t.diff.toNat = Spec.differingBits s0 0 c ∧ t.cnt.toNat = c.length ∧ t.len = bits ∧ t.vsel = v ∧
      t.CountsBounded := by
  have diff_zero : s.diff.toNat = 0 := by rw [start.diff]; rfl
  have cnt_zero : s.cnt.toNat = 0 := by rw [start.cnt]; rfl
  have room : s.cnt.toNat + c.length ≤ s.len.toNat / 8 := by
    rw [cnt_zero, start.len, hbits]
    omega
  have scored := Machine.session_map_score c start.seeded start.countsBounded room
  rwa [diff_zero, cnt_zero, Nat.zero_add, Nat.zero_add, start.genState, start.len, start.vsel] at scored

/-- SCLR where L is set already, and CFG, leave the same (41_scorecard.md R120, R121). -/
theorem exec_clear {clear : Instr} {bits : Word} {s : State} (hlegal : legalLength bits = true)
    (hclear : clear = .sclr ∧ s.len = bits ∨ clear = .cfg bits) :
    exec clear s = .next (({ s.clearScore with len := bits } : State).respond 0#32) := by
  obtain ⟨rfl, rfl⟩ | rfl := hclear
  · rfl
  · exact execCfg_of_legal hlegal

/-- The SEED and the clearing command write different registers, so their order does not matter. -/
theorem session_candidateStart {v : BitVec 2} {x bits : Word} {off : Nat} {s : State} {clear : Instr}
    {pre : List Instr} (hoff : Spec.offsets[v.toNat]? = some off) (hlegal : legalLength bits = true)
    (hclear : clear = .sclr ∧ s.len = bits ∨ clear = .cfg bits)
    (hpre : pre = [.seed v x, clear] ∨ pre = [clear, .seed v x]) :
    ∃ t r1 r2, CandidateStart v (BitVec.ofNat 32 (Spec.seedState off x.toNat)) bits t ∧
      ∀ is u rs, session is t = some (u, rs) → session (pre ++ is) s = some (u, r1 :: r2 :: rs) := by
  obtain rfl | rfl := hpre
  · exact ⟨_, _, _, ⟨rfl, rfl, rfl, rfl, rfl, rfl⟩, fun is u rs h =>
      session_cons (exec_seed_of_offsets hoff x s) rfl (session_cons (exec_clear hlegal hclear) rfl h)⟩
  · exact ⟨_, _, _, ⟨rfl, rfl, rfl, rfl, rfl, rfl⟩, fun is u rs h =>
      session_cons (exec_clear hlegal hclear) rfl (session_cons (exec_seed_of_offsets hoff x _) rfl h)⟩

/-- Settles O42: the score begins at 0 with the keystream at S_0, the SCOREs count the differing bits, and the chunk is
then whole, so the four reads answer their formulas. -/
theorem candidateScoreIsTheBitDifference : Obligations.CandidateScoreIsTheBitDifference := by
  intro v x bits off c s clear pre hoff hbits hne hclear hpre s0 d
  have nonempty : 0 < c.length := List.length_pos_iff.2 hne
  have hlegal : legalLength bits = true := (legalLength_iff_toNat bits).2 (by omega)
  obtain ⟨s1, r1, r2, start, before⟩ := session_candidateStart (x := x) hoff hlegal hclear hpre
  obtain ⟨t, hsession, (tdiff : t.diff.toNat = d), tcnt, tlen, tvsel, tcounts⟩ := start.session_map_score hbits
  have whole : t.cnt.toNat = t.len.toNat / 8 := by rw [tcnt, tlen]; omega
  refine ⟨t, r1, r2, before _ _ _ hsession, tdiff, tcnt, tlen, ?_, ?_, ?_, ?_, ?_⟩
  · rw [← tdiff, ← tlen]
    exact tcounts.diff_le_len
  · rw [← tdiff, BitVec.ofNat_toNat, BitVec.setWidth_eq]
    exact readResult_of_whole_chunk whole _
  · rw [← tdiff, ← tlen]
    exact readResult_of_whole_chunk whole _
  · rw [← tdiff, ← tlen]
    exact readResult_of_whole_chunk whole _
  · have flags : zext32 (flagsByte t.polarity t.vsel) =
        BitVec.ofNat 32 (v.toNat + if bits.toNat - d ≥ d then 0 else 4) := by
      rw [zext32_flagsByte, State.polarity, toNat_pol, tlen, tvsel, tdiff]
      split <;> rfl
    rw [← flags]
    exact readResult_of_whole_chunk whole _

end Sys2Proof.Machine
end

section
/-! XFORM (O18): decoding, with P a field of the command byte, and the masked XOR on naturals. -/

namespace Sys2Proof

theorem pField_eq_ofNat (cmd : Byte) : pField cmd = BitVec.ofNat 1 (cmd.toNat / 4 % 2) := by
  rw [← pField_toNat, BitVec.ofNat_toNat, BitVec.setWidth_eq]

theorem decode_of_xform_opcode {cmd : Byte} (opd : Word) (hop : cmd.toNat / 8 = 5) :
    decode cmd opd =
      if cmd.toNat % 4 ≠ 0 then .error .illegalCmd
      else if opd.toNat / 256 ≠ 0 then .error .reservedOperand
      else .ok (.xform (BitVec.ofNat 1 (cmd.toNat / 4 % 2)) (BitVec.ofNat 8 opd.toNat)) := by
  have field : opField cmd = 5#5 := (opField_eq_iff cmd (by decide)).2 hop
  have selects : select (opField cmd) (pField cmd) (vField cmd) opd = some (.xform (pField cmd) (lowByte opd)) := by
    rw [field]; rfl
  have reserved : reservedBits (opForm (opField cmd)) opd = opd >>> 8 := by
    rw [field]; rfl
  have illegal_iff : IllegalByte cmd ↔ cmd.toNat % 4 ≠ 0 := by
    unfold IllegalByte
    omega
  rw [decode_eq_of_select selects, reserved, pField_eq_ofNat, lowByte_eq_ofNat]
  simp only [illegal_iff, ne_eq, highBits_eq_zero_iff]

/-- The mask of P, with P read as a number (42_transform.md R160). -/
theorem polarityMask_eq_ite (p : BitVec 1) : polarityMask p = if p.toNat = 1 then 0xFF else 0x00 := by
  revert p
  decide

theorem toNat_polarityMask (p : BitVec 1) : (polarityMask p).toNat = if p.toNat = 1 then 0xFF else 0 := by
  rw [polarityMask_eq_ite, apply_ite BitVec.toNat]
  rfl

end Sys2Proof

namespace Sys2Proof.Machine

/-- Settles O18: the answer of a seeded XFORM, on naturals, and its one error. -/
theorem xformAnswersTheMaskedXor : Obligations.XformAnswersTheMaskedXor := by
  refine ⟨fun _ opd hop => decode_of_xform_opcode opd hop, fun p b s hseeded => ?_, fun p b s hunseeded => ?_⟩
  · have answer : zext32 (b ^^^ s.nextByte ^^^ polarityMask p) =
        BitVec.ofNat 32
          (b.toNat ^^^ Spec.xorshift s.genState.toNat % 256 ^^^ (if p.toNat = 1 then 0xFF else 0)) := by
      rw [zext32_eq_ofNat, BitVec.toNat_xor, BitVec.toNat_xor, s.toNat_nextByte, toNat_polarityMask]
    rw [← answer, ← xs_eq_ofNat]
    exact execXform_of_seeded hseeded
  · rw [← State.raise_eq_raised]
    exact execXform_of_unseeded hunseeded

end Sys2Proof.Machine
end

section
/-! The residual of a chunk (O43): XFORMs mask the chunk with the keystream, by induction on the chunk, and masking twice
changes nothing. -/

namespace Sys2Proof.Machine

/-- The residual of a chunk is its first byte masked with the next keystream byte, and the residual from one step on. -/
theorem maskedBytes_cons (m : Byte) (s : State) (b : Byte) (c : List Byte) :
    Spec.maskedBytes m s.genState 0 (b :: c) =
      (b ^^^ s.nextByte ^^^ m) :: Spec.maskedBytes m (xs s.genState) 0 c := by
  rw [maskedBytes_xs]; rfl

theorem length_maskedBytes (m : Byte) (w : Word) (i : Nat) (c : List Byte) :
    (Spec.maskedBytes m w i c).length = c.length := by
  induction c generalizing i with
  | nil => rfl
  | cons b c ih => rw [Spec.maskedBytes, List.length_cons, List.length_cons, ih]

theorem xor_xor_cancel (b k m : Byte) : b ^^^ k ^^^ m ^^^ k ^^^ m = b := by
  calc b ^^^ k ^^^ m ^^^ k ^^^ m = b ^^^ (k ^^^ m) ^^^ (k ^^^ m) := by simp only [BitVec.xor_assoc]
    _ = b := by rw [BitVec.xor_assoc b, BitVec.xor_self, BitVec.xor_zero]

/-- Masking is its own inverse under the same keystream (42_transform.md R161). -/
theorem maskedBytes_maskedBytes (m : Byte) (w : Word) (i : Nat) (c : List Byte) :
    Spec.maskedBytes m w i (Spec.maskedBytes m w i c) = c := by
  induction c generalizing i with
  | nil => rfl
  | cons b c ih => rw [Spec.maskedBytes, Spec.maskedBytes, xor_xor_cancel, ih]

/-- XFORMs in a seeded state answer the bytes masked with the keystream from that state (42_transform.md R160). -/
theorem session_map_xform (p : BitVec 1) (c : List Byte) {s : State} (hseeded : s.seeded = true) :
    ∃ t, session (c.map (.xform p)) s =
      some (t, Spec.okBytes (Spec.maskedBytes (polarityMask p) s.genState 0 c)) := by
  induction c generalizing s with
  | nil => exact ⟨s, rfl⟩
  | cons b c ih =>
    obtain ⟨t, hsession⟩ :=
      ih (s := s.advance.respond (zext32 (b ^^^ s.nextByte ^^^ polarityMask p))) hseeded
    refine ⟨t, ?_⟩
    rw [maskedBytes_cons, okBytes_cons]
    exact session_cons (execXform_of_seeded hseeded) rfl hsession

/-- What a SEED that loads the word `w` leaves (40_keystream.md R100). -/
def State.afterSeed (s : State) (v : BitVec 2) (w : Word) : State :=
  { s with genState := w, vsel := v, seeded := true, response := some ⟨w, .ok⟩ }

theorem exec_seed_eq_afterSeed {v : BitVec 2} {off : Nat} (hoff : Spec.offsets[v.toNat]? = some off) (x : Word)
    (s : State) :
    exec (.seed v x) s = .next (s.afterSeed v (BitVec.ofNat 32 (Spec.seedState off x.toNat))) :=
  exec_seed_of_offsets hoff x s

/-- RESIDUAL answers the chunk masked with the keystream of the SEED, from any state (30_encoding.md R80). -/
theorem session_residual {v : BitVec 2} {off : Nat} (hoff : Spec.offsets[v.toNat]? = some off) (p : BitVec 1) (x : Word)
    (c : List Byte) (s : State) :
    ∃ t, session (residual p v x c) s =
      some (t, ⟨BitVec.ofNat 32 (Spec.seedState off x.toNat), .ok⟩ ::
        Spec.okBytes (Spec.maskedBytes (polarityMask p) (BitVec.ofNat 32 (Spec.seedState off x.toNat)) 0 c)) := by
  obtain ⟨t, hsession⟩ := session_map_xform p c
    (s := s.afterSeed v (BitVec.ofNat 32 (Spec.seedState off x.toNat))) rfl
  exact ⟨t, session_cons (exec_seed_eq_afterSeed hoff x s) rfl hsession⟩

/-- RECOVER sends the commands of RESIDUAL, over the residual bytes (30_encoding.md R80). -/
theorem recover_eq_residual : recover = residual := rfl

/-- Settles O43: both sessions mask with the keystream of the same SEED, and masking twice gives the chunk back. -/
theorem xformIsItsOwnInverse : Obligations.XformIsItsOwnInverse := by
  intro p v x c s s' hv
  obtain ⟨off, hoff⟩ := exists_offsets_of_ne_three hv
  obtain ⟨t, hresidual⟩ := session_residual hoff p x c s
  obtain ⟨t', hrecover⟩ := session_residual hoff p x (Spec.maskedBytes _ _ 0 c) s'
  rw [maskedBytes_maskedBytes] at hrecover
  exact ⟨t, t', _, _, length_maskedBytes _ _ _ _, hresidual, recover_eq_residual ▸ hrecover⟩

end Sys2Proof.Machine
end

section
/-! The zero bits of a residual (O44): those of the raw residual are the agreeing bits of the chunk and the keystream,
those of the complemented one the differing bits, and the polarity takes the larger of the two. -/

namespace Sys2Proof.Machine

theorem zeroBits_cons (b : Byte) (bs : List Byte) :
    Spec.zeroBits (b :: bs) = 8 - Spec.popcount b + Spec.zeroBits bs := rfl

/-- The zero bits of a complemented byte are the one bits of the byte. -/
theorem eight_sub_popcount_complement (b : Byte) : 8 - Spec.popcount (b ^^^ 0xFF#8) = Spec.popcount b := by
  revert b
  decide

theorem zeroBits_maskedBytes_zero (w : Word) (i : Nat) (c : List Byte) :
    Spec.zeroBits (Spec.maskedBytes 0#8 w i c) + Spec.differingBits w i c = 8 * c.length := by
  induction c generalizing i with
  | nil => rfl
  | cons b c ih =>
    have tail := ih (i + 1)
    have head := popcount_le_eight (b ^^^ keystreamByte w i)
    rw [Spec.maskedBytes, zeroBits_cons, BitVec.xor_zero, Spec.differingBits, List.length_cons]
    omega

theorem zeroBits_maskedBytes_complement (w : Word) (i : Nat) (c : List Byte) :
    Spec.zeroBits (Spec.maskedBytes 0xFF#8 w i c) = Spec.differingBits w i c := by
  induction c generalizing i with
  | nil => rfl
  | cons b c ih =>
    rw [Spec.maskedBytes, zeroBits_cons, eight_sub_popcount_complement, ih, Spec.differingBits]

/-- The residual taken with the polarity of the score holds MATCH zero bits (42_transform.md R162). -/
theorem zeroBits_maskedBytes_pol (w : Word) (i : Nat) (c : List Byte) :
    Spec.zeroBits (Spec.maskedBytes (polarityMask (pol (8 * c.length) (Spec.differingBits w i c))) w i c) =
      matchOf (8 * c.length) (Spec.differingBits w i c) := by
  rw [pol_eq_ite, matchOf_eq_ite]
  split
  · rw [polarityMask_one, zeroBits_maskedBytes_complement]
  · rw [polarityMask_zero, ← zeroBits_maskedBytes_zero w i c, Nat.add_sub_cancel]

/-- A SEED and then a SCLR leave a candidate's start, with L as it was. -/
theorem candidateStart_afterSeed_clearScore (s : State) (v : BitVec 2) (w : Word) :
    CandidateStart v w s.len ((s.afterSeed v w).clearScore.respond 0#32) :=
  ⟨rfl, rfl, rfl, rfl, rfl, rfl⟩

/-- CANDIDATE over a chunk as long as L leaves its differing bits in DIFF and the chunk whole, the empty chunk included
(30_encoding.md R80). -/
theorem session_candidate {v : BitVec 2} {off : Nat} (hoff : Spec.offsets[v.toNat]? = some off) (x : Word)
    {c : List Byte} {s : State} (hlen : s.len.toNat = 8 * c.length) :
    ∃ t rs, session (candidate v x c) s = some (t, rs) ∧
      t.diff.toNat = Spec.differingBits (BitVec.ofNat 32 (Spec.seedState off x.toNat)) 0 c ∧
      t.len = s.len ∧ t.cnt.toNat = t.len.toNat / 8 := by
  obtain ⟨t, hsession, tdiff, tcnt, tlen, -, -⟩ :=
    (candidateStart_afterSeed_clearScore s v _).session_map_score hlen
  refine ⟨t, _, session_cons (exec_seed_eq_afterSeed hoff x s) rfl (session_cons rfl rfl hsession), tdiff, tlen, ?_⟩
  rw [tcnt, tlen, hlen]
  omega

/-- Settles O44: the score's polarity and RDMATCH's answer are POL and MATCH of the chunk's length and its differing
bits. -/
theorem residualHoldsMatchZeroBits : Obligations.ResidualHoldsMatchZeroBits := by
  intro v x off c s hoff hlen s0
  obtain ⟨t, rs, hcandidate, tdiff, tlen, whole⟩ := session_candidate hoff x hlen
  obtain ⟨w, hresidual⟩ := session_residual hoff t.polarity x c t
  have polarity : t.polarity = pol (8 * c.length) (Spec.differingBits s0 0 c) := by
    rw [State.polarity, tlen, hlen, tdiff]
  have answer : (BitVec.ofNat 32 (matchOf t.len.toNat t.diff.toNat)).toNat =
      matchOf (8 * c.length) (Spec.differingBits s0 0 c) := by
    rw [toNat_ofNat_matchOf, tlen, hlen, tdiff]
  refine ⟨t, _, w, rs, _, _, _, hcandidate, readResult_of_whole_chunk whole _, rfl, rfl, hresidual, ?_, ?_, ?_⟩
  · rw [← polarityMask_eq_ite]
  · rw [polarity, answer, zeroBits_maskedBytes_pol]
  · rw [answer]
    exact le_two_mul_matchOf _ _

end Sys2Proof.Machine
end

section
/-! Every step goes on and takes at most the head of the host's list (O7). -/

namespace Sys2Proof.Machine

theorem exec_keeps_inputs (i : Instr) (s : State) : ∃ t, exec i s = .next t ∧ t.inputs = s.inputs := by
  obtain ⟨t, ht, -⟩ := exec_cases i s
  obtain ⟨-, -, -, hinputs⟩ := registersHaveTheirWriters i s t ht
  exact ⟨t, ht, hinputs⟩

/-- Settles O7: a step takes the head of the list away before it serves it, and no reset, command or error touches what
waits behind it. -/
theorem everyStepGoesOn : Obligations.EveryStepGoesOn := by
  intro s
  obtain ⟨hinputs, hstep⟩ | ⟨rest, hinputs, hstep⟩ | ⟨_, _, rest, i, hinputs, -, hstep⟩ |
    ⟨_, _, rest, e, hinputs, -, hstep⟩ := step_cases s <;> rw [hstep, hinputs]
  · exact ⟨s, rfl, hinputs⟩
  · exact ⟨_, rfl, (s.withInputs rest).applyReset_inputs⟩
  · exact exec_keeps_inputs i (s.withInputs rest)
  · exact ⟨_, rfl, (s.withInputs rest).raise_inputs e⟩

end Sys2Proof.Machine
end

section
/-! The control and status commands: RDSTAT with the bits of its word (O24), NOP (O12) and RDSTATE (O23). -/

namespace Sys2Proof.Machine

/-- The bits of the status word from the lowest up (10_state.md R32); ERRCODE has no bit from 4 on, and so the word none
from 8 on. -/
theorem State.getLsbD_statusWord (s : State) (i : Nat) :
    s.statusWord.getLsbD i =
      match i with
      | 0 => s.seeded
      | 1 => s.done
      | 2 => s.err
      | 3 => false
      | j + 4 => s.errcode.getLsbD j := by
  rw [statusWord, BitVec.getLsbD_setWidth]
  simp only [BitVec.getLsbD_append]
  match i with
  | 0 | 1 | 2 | 3 => simp
  | j + 4 =>
    have fits : s.errcode.getLsbD j = true → j + 4 < 32 := fun hbit => by
      have := BitVec.lt_of_getLsbD hbit
      omega
    simpa using fits

/-- Settles O24: each clause on the word is one case of its bits. -/
theorem rdstatReadsTheStatusWord : Obligations.RdstatReadsTheStatusWord := by
  refine ⟨fun _ opd hop => decode_of_none_opcode (k := 11) (by decide) (fun _ _ _ => rfl) rfl opd hop,
    fun s => ⟨s.statusWord, rfl, s.getLsbD_statusWord 0, s.getLsbD_statusWord 1, s.getLsbD_statusWord 2,
      s.getLsbD_statusWord 3, fun i _ => ?_, fun i hi => ?_⟩⟩
  · rw [Nat.add_comm]
    exact s.getLsbD_statusWord (i + 4)
  · obtain ⟨j, rfl⟩ := Nat.exists_eq_add_of_le' hi
    exact (s.getLsbD_statusWord (j + 8)).trans (BitVec.getLsbD_of_ge _ _ (Nat.le_add_left 4 j))

/-- Settles O12. -/
theorem nopChangesNothing : Obligations.NopChangesNothing :=
  ⟨fun _ opd hop => decode_of_none_opcode (k := 0) (by decide) (fun _ _ _ => rfl) rfl opd hop, fun _ => rfl⟩

/-- Settles O23: before the first SEED the invariant keeps STATE at its reset value. -/
theorem rdstateReadsTheGenerator : Obligations.RdstateReadsTheGenerator := by
  refine ⟨fun _ opd hop => decode_of_none_opcode (k := 10) (by decide) (fun _ _ _ => rfl) rfl opd hop,
    fun _ => rfl, fun s ⟨_, _, _, _, _, unseededZero⟩ hunseeded => ?_⟩
  have answer : s.respond s.genState = s.respond 0 := congrArg s.respond (unseededZero hunseeded)
  exact congrArg Host.Outcome.next answer

end Sys2Proof.Machine
end

section
/-! Waiting (O8), and every command's outcome by the order of the checks (O6): the decoder raises its errors by R76's
list and the operand form, and a decoded command ends by its own checks alone. -/

namespace Sys2Proof.Machine

/-- Settles O8: with nothing in the list the step takes the waiting branch. -/
theorem waitingHoldsTheState : Obligations.WaitingHoldsTheState := by
  intro s hinputs
  rw [step, serveNext, hinputs, waitForHost]

/-! How a command ends -/

/-- A result that ends a command of state `s` with an outcome: an error leaves R210's state, and OK leaves an answer and
the error record that `s` had. -/
def EndsWith (s : State) (r : StepResult) : CmdOutcome → Prop
  | .error e => r = .next (Spec.raised s e)
  | .ok => ∃ t v, r = .next t ∧ t.response = some ⟨v, .ok⟩ ∧ t.err = s.err ∧ t.errcode = s.errcode

theorem EndsWith.next {s : State} {r : StepResult} {o : CmdOutcome} (h : EndsWith s r o) :
    ∃ t x, r = .next t ∧ t.response = some x ∧ x.outcome = o ∧
      (∀ e, x.outcome = .error e → t = Spec.raised s e) ∧
      (x.outcome = .ok → t.err = s.err ∧ t.errcode = s.errcode) := by
  cases o with
  | error e =>
    refine ⟨_, _, h, rfl, rfl, fun e' he => ?_, nofun⟩
    cases he
    rfl
  | ok =>
    obtain ⟨t, v, hr, hresponse, hrecord⟩ := h
    exact ⟨t, _, hr, hresponse, rfl, nofun, fun _ => hrecord⟩

theorem EndsWith.of_answer {s t : State} {r : StepResult} {v : Word} (h : r = .next t)
    (hresponse : t.response = some ⟨v, .ok⟩) (hrecord : t.err = s.err ∧ t.errcode = s.errcode) : EndsWith s r .ok :=
  ⟨t, v, h, hresponse, hrecord⟩

/-- A check that raises its error where it fails, and leaves the later outcome where it passes. -/
theorem EndsWith.check {s : State} {r : StepResult} {c : Prop} [Decidable c] {e : ErrCode} {o : CmdOutcome}
    (fails : c → r = .next (Spec.raised s e)) (passes : ¬ c → EndsWith s r o) :
    EndsWith s r (if c then .error e else o) := by
  split
  next hc => exact fails hc
  next hc => exact passes hc

/-- The checks left for a decoded command, in the order of 60_exceptions.md R209; `exec_endsWith_ownOutcome` says that
the meanings make them. -/
def ownOutcome (i : Instr) (s : State) : CmdOutcome :=
  match i with
  | .seed v _ => if v = 3 then .error .badVariant else .ok
  | .gen | .xform _ _ => if s.seeded = false then .error .unseeded else .ok
  | .score _ =>
    if s.seeded = false then .error .unseeded
    else if s.cnt.toNat = s.len.toNat / 8 then .error .scoreOverrun
    else .ok
  | .rddiff | .rdzeros | .rdmatch | .rdflags =>
    if s.cnt.toNat ≠ s.len.toNat / 8 then .error .notReady else .ok
  | .cfg bits => if bits.toNat = 0 ∨ bits.toNat % 8 ≠ 0 then .error .badLength else .ok
  | .nop | .sclr | .rdstate | .rdstat | .rdcnt | .rdlen => .ok

theorem readResult_endsWith (v : Word) (s : State) :
    EndsWith s (readResult v s) (if s.cnt.toNat ≠ s.len.toNat / 8 then .error .notReady else .ok) :=
  .check (fun hpartial => readResult_of_partial_chunk hpartial v)
    fun hwhole => .of_answer (readResult_of_whole_chunk (not_not.1 hwhole) v) rfl ⟨rfl, rfl⟩

/-- Each command's own statement gives the result of each of its checks. -/
theorem exec_endsWith_ownOutcome (i : Instr) (s : State) : EndsWith s (exec i s) (ownOutcome i s) := by
  cases i with
  | seed v x =>
    obtain ⟨-, -, bad_variant⟩ := seedLoadsTheGenerator
    refine .check (fun hv => hv ▸ bad_variant x s) fun hv => ?_
    obtain ⟨off, hoff⟩ := exists_offsets_of_ne_three hv
    exact .of_answer (exec_seed_of_offsets hoff x s) rfl ⟨rfl, rfl⟩
  | gen =>
    obtain ⟨-, completes, unseeded⟩ := genAnswersTheNextByte
    exact .check (unseeded s) fun hs => .of_answer (completes s (eq_true_of_ne_false hs)) rfl ⟨rfl, rfl⟩
  | xform p b =>
    obtain ⟨-, completes, unseeded⟩ := xformAnswersTheMaskedXor
    exact .check (unseeded p b s) fun hs => .of_answer (completes p b s (eq_true_of_ne_false hs)) rfl ⟨rfl, rfl⟩
  | score c =>
    obtain ⟨-, completes, unseeded, overrun⟩ := scoreCountsTheDifferingBits
    refine .check (unseeded c s) fun hs => .check (overrun c s (eq_true_of_ne_false hs)) fun hpartial => ?_
    exact .of_answer (completes c s (eq_true_of_ne_false hs) hpartial) rfl ⟨rfl, rfl⟩
  | cfg bits =>
    obtain ⟨-, completes, bad_length⟩ := cfgSetsTheLength
    refine .check (bad_length bits s) fun hlegal => ?_
    obtain ⟨hpos, height⟩ := not_or.1 hlegal
    exact .of_answer (completes bits s hpos (not_not.1 height)) rfl ⟨rfl, rfl⟩
  | rddiff | rdzeros | rdmatch | rdflags => exact readResult_endsWith _ s
  | nop | sclr | rdstate | rdstat | rdcnt | rdlen => exact .of_answer rfl rfl ⟨rfl, rfl⟩

/-! The order of R209 on what was decoded -/

/-- On a command's encoding the checks that R209 puts before the command's own all pass; BAD_VARIANT counts as SEED's
own (log entry 5). -/
theorem outcome_encode (i : Instr) (s : State) :
    Spec.outcome s (commandByte i).toNat (operandWord i).toNat = ownOutcome i s := by
  cases i with
  | seed v x =>
    have byte : ∀ v : BitVec 2, (0x08#8 ||| v.setWidth 8).toNat = 8 + v.toNat ∧ (v = 3#2 ↔ v.toNat = 3) := by decide
    obtain ⟨hbyte, hthree⟩ := byte v
    have hv := v.isLt
    have op : (8 + v.toNat) / 8 = 1 := by omega
    have p_clear : (8 + v.toNat) / 4 % 2 = 0 := by omega
    have variant : (8 + v.toNat) % 4 = v.toNat := by omega
    simp [Spec.outcome, commandByte, ownOutcome, hbyte, op, p_clear, variant, hthree]
  | xform p b =>
    have byte : ∀ p : BitVec 1, (0x28#8 ||| (p.setWidth 8 <<< 2)).toNat / 8 = 5 ∧
        (0x28#8 ||| (p.setWidth 8 <<< 2)).toNat % 4 = 0 := by decide
    obtain ⟨op, v_clear⟩ := byte p
    have fits : (zext32 b).toNat / 256 = 0 := by rw [toNat_zext32]; exact Nat.div_eq_of_lt b.isLt
    simp [Spec.outcome, commandByte, operandWord, ownOutcome, op, v_clear, fits, -BitVec.toNat_or]
  | score c =>
    have fits : (zext32 c).toNat / 256 = 0 := by rw [toNat_zext32]; exact Nat.div_eq_of_lt c.isLt
    simp [Spec.outcome, commandByte, operandWord, ownOutcome, fits]
  | nop | gen | sclr | rddiff | rdzeros | rdmatch | rdflags | rdstate | rdstat | cfg | rdcnt | rdlen =>
    simp [Spec.outcome, commandByte, operandWord, ownOutcome]

theorem outcome_of_illegalByte {cmd : Byte} (h : IllegalByte cmd) (s : State) (opd : Nat) :
    Spec.outcome s cmd.toNat opd = .error .illegalCmd := by
  unfold IllegalByte at h
  simp only [Spec.outcome]
  iterate 3 -- the ILLEGAL_CMD checks
    split
    next => rfl
  omega

/-- R72's unused operand bits, by the opcode's number: bits 31:8 of form B8, every bit of form NONE. -/
theorem reservedBits_ne_zero_iff (cmd : Byte) (opd : Word) :
    reservedBits (opForm (opField cmd)) opd ≠ 0#32 ↔
      ((cmd.toNat / 8 = 4 ∨ cmd.toNat / 8 = 5) ∧ opd.toNat / 256 ≠ 0) ∨
      (cmd.toNat / 8 ≠ 1 ∧ cmd.toNat / 8 ≠ 12 ∧ cmd.toNat / 8 ≠ 4 ∧ cmd.toNat / 8 ≠ 5 ∧ opd.toNat ≠ 0) := by
  simp only [opForm, opField_eq_iff cmd (k := 1) (by decide), opField_eq_iff cmd (k := 12) (by decide),
    opField_eq_iff cmd (k := 4) (by decide), opField_eq_iff cmd (k := 5) (by decide)]
  split_ifs with hword hbyte
  · exact iff_of_false (fun h => h rfl) (by omega)
  · rw [reservedBits, ne_eq, highBits_eq_zero_iff]
    omega
  · rw [reservedBits, ne_eq, word_eq_zero_iff]
    omega

theorem decode_eq_reservedOperand {cmd : Byte} {opd : Word} (h : decode cmd opd = .error .reservedOperand) :
    ¬ IllegalByte cmd ∧ reservedBits (opForm (opField cmd)) opd ≠ 0#32 := by
  have legal : ¬ IllegalByte cmd := fun hillegal => by
    cases h.symm.trans ((decode_eq_illegalCmd_iff cmd opd).2 hillegal)
  obtain ⟨i, hselect⟩ := select_isSome cmd opd (Nat.lt_of_not_le (not_or.1 legal).1)
  refine ⟨legal, fun hreserved => ?_⟩
  rw [decode_eq_of_select hselect, if_neg legal, if_neg (not_not.2 hreserved)] at h
  cases h

/-- BAD_VARIANT comes before RESERVED_OPERAND in R209, but SEED has no unused operand bit. -/
theorem outcome_of_reservedOperand {cmd : Byte} {opd : Word} (hlegal : ¬ IllegalByte cmd)
    (hreserved : reservedBits (opForm (opField cmd)) opd ≠ 0#32) (s : State) :
    Spec.outcome s cmd.toNat opd.toNat = .error .reservedOperand := by
  rw [reservedBits_ne_zero_iff] at hreserved
  unfold IllegalByte at hlegal
  simp only [Spec.outcome]
  rw [if_neg (by omega), if_neg (by omega), if_neg (by omega), if_neg (by omega)] -- ILLEGAL_CMD and BAD_VARIANT
  iterate 2 -- the unused bits of form B8, then of form NONE
    split
    next => rfl
  omega

theorem outcome_of_decode_error {cmd : Byte} {opd : Word} {e : ErrCode} (h : decode cmd opd = .error e) (s : State) :
    Spec.outcome s cmd.toNat opd.toNat = .error e := by
  obtain rfl | rfl := decode_error h
  · exact outcome_of_illegalByte ((decode_eq_illegalCmd_iff cmd opd).1 h) s _
  · obtain ⟨hlegal, hreserved⟩ := decode_eq_reservedOperand h
    exact outcome_of_reservedOperand hlegal hreserved s

theorem serveCommand_endsWith_outcome (cmd : Byte) (opd : Word) (s : State) :
    EndsWith s (serveCommand cmd opd s) (Spec.outcome s cmd.toNat opd.toNat) := by
  cases hdecode : decode cmd opd with
  | error e =>
    rw [outcome_of_decode_error hdecode]
    exact serveCommand_of_error hdecode s
  | ok i =>
    obtain ⟨rfl, rfl⟩ := Prod.ext_iff.1 (encodeOfDecodeIsTheWord cmd opd i hdecode)
    rw [serveCommand_of_ok hdecode]
    exact outcome_encode i s ▸ exec_endsWith_ownOutcome i s

/-- Settles O6: the outcome is the decoding error, or the decoded command's own. -/
theorem commandOutcomeByPriority : Obligations.CommandOutcomeByPriority :=
  fun s cmd opd => (serveCommand_endsWith_outcome cmd opd s).next

end Sys2Proof.Machine
end

section
/-! Reset (O9), and which reset values only it restores (O10): a command served raises an error or completes, and neither
clears SEEDED or the error record. -/

namespace Sys2Proof.Machine

/-- Settles O9: the reset event replaces every register, whatever it held, by the value in `State.reset`. -/
theorem resetSetsEveryRegister : Obligations.ResetSetsEveryRegister :=
  ⟨fun s => ⟨s.applyReset, rfl, rfl, rfl, rfl, rfl, rfl, rfl, rfl, rfl⟩, rfl, rfl, rfl, rfl, rfl, rfl, rfl, rfl⟩

/-- `exec_cases` for command bytes: a decoding error is raised like any other (60_exceptions.md R210). -/
theorem serveCommand_cases (cmd : Byte) (opd : Word) (s : State) :
    ∃ t, serveCommand cmd opd s = .next t ∧ ((∃ e, t = s.raise e) ∨ ∃ i, Completes i s t) := by
  cases hdecode : decode cmd opd with
  | error e => exact ⟨_, serveCommand_of_error hdecode s, .inl ⟨e, (s.raise_eq_raised e).symm⟩⟩
  | ok i =>
    obtain ⟨t, ht, hcases⟩ := exec_cases i s
    exact ⟨t, (serveCommand_of_ok hdecode s).trans ht, hcases.imp_right fun ⟨_, hcompletes⟩ => ⟨i, hcompletes⟩⟩

/-- The one writer of SEEDED sets it (10_state.md R23). -/
theorem seeded_of_completes {i : Instr} {s t : State} (h : Completes i s t) (hseeded : s.seeded = true) :
    t.seeded = true := by
  obtain ⟨seeded_writer, -⟩ := completes_writers h
  by_cases hkept : t.seeded = s.seeded
  · exact hkept.trans hseeded
  · obtain ⟨-, -, -, -, hset⟩ := seeded_writer (.inr hkept)
    exact hset

/-- A completed command leaves the error record (10_state.md R28, R29). -/
theorem errorRecord_of_completes {i : Instr} {s t : State} (h : Completes i s t) :
    t.err = s.err ∧ t.errcode = s.errcode := by
  obtain ht | ⟨-, ht⟩ | ⟨_, _, _, -, -, ht⟩ | ⟨_, -, -, -, ht⟩ | ⟨-, ht⟩ | ⟨_, -, -, ht⟩ := completes_cases h <;>
    rw [ht] <;> exact ⟨rfl, rfl⟩

/-- ERRCODE keeps the code of the first error (10_state.md R29). -/
theorem State.ErrorRecordLegal.raise_errcode {s : State} (hs : s.ErrorRecordLegal) (hcode : s.errcode ≠ 0#4)
    (e : ErrCode) : (s.raise e).errcode = s.errcode := by
  obtain ⟨clear_iff, -⟩ := hs
  have err_set : s.err = true := eq_true_of_ne_false fun hclear => hcode (clear_iff.1 hclear)
  rw [State.raise_errcode, if_pos err_set]

/-- Settles O10: the three commands that restore a reset value, and for the rest the two ways a command can end. -/
theorem onlyResetRestoresTheRest : Obligations.OnlyResetRestoresTheRest := by
  refine ⟨fun s x => ⟨_, execSeed_of_offset offset_zero x s, rfl⟩, fun s => ⟨_, rfl, rfl, rfl⟩,
    fun s => ⟨_, execCfg_of_legal (by decide), rfl⟩, fun s cmd opd hs => ?_⟩
  obtain ⟨t, ht, ⟨e, rfl⟩ | ⟨i, hcompletes⟩⟩ := serveCommand_cases cmd opd s
  · obtain ⟨hnonzero, -, -, -, herror, -⟩ := hs
    exact ⟨_, ht, fun hseeded => ⟨hseeded, hnonzero hseeded⟩, fun _ => s.raise_err e,
      fun hcode => herror.raise_errcode hcode e⟩
  · obtain ⟨hnonzero, -⟩ := hs.completes hcompletes
    obtain ⟨herr, herrcode⟩ := errorRecord_of_completes hcompletes
    have seeded_kept := seeded_of_completes hcompletes
    exact ⟨t, ht, fun hseeded => ⟨seeded_kept hseeded, hnonzero (seeded_kept hseeded)⟩, herr.trans, fun _ => herrcode⟩

end Sys2Proof.Machine
end

section
/-! A SEED between the SCOREs of a chunk and what comes after (O45, O46): it leaves the scorecard as it was, so the next
command finds the old counts beside the new variant. -/

namespace Sys2Proof.Machine

/-- A SEED with a variant of the table, and one command after it. -/
theorem session_seed_then {v : BitVec 2} (hv : v ≠ 3) (x : Word) (s : State) :
    ∃ w, ∀ i t r, exec i (s.afterSeed v w) = .next t → t.response = some r →
      session [.seed v x, i] s = some (t, [⟨w, .ok⟩, r]) := by
  obtain ⟨off, hoff⟩ := exists_offsets_of_ne_three hv
  exact ⟨_, fun i t r hexec hr => session_cons (exec_seed_eq_afterSeed hoff x s) rfl (session_cons hexec hr rfl)⟩

/-- Settles O45: RDFLAGS reads the VSEL that SEED wrote, and the polarity of the counts that SEED left. -/
theorem flagsReportTheLatestVariant : Obligations.FlagsReportTheLatestVariant := by
  intro v x s hv hwhole
  obtain ⟨w, hsession⟩ := session_seed_then hv x s
  obtain ⟨-, flags, -⟩ := rdflagsReadsVariantAndPolarity
  exact ⟨_, _, hsession .rdflags _ _ (flags (s.afterSeed v w) hwhole) rfl, rfl⟩

theorem okBytes_singleton (b : Byte) : Spec.okBytes [b] = [⟨zext32 b, .ok⟩] := okBytes_cons b []

/-- Settles O46: SCORE finds the chunk as SEED left it, whole or with room for one more byte. -/
theorem scoresAccumulateAcrossSeeds : Obligations.ScoresAccumulateAcrossSeeds := by
  intro v x c s hs hv
  obtain ⟨-, -, -, hcounts, -, -⟩ := hs
  obtain ⟨w, hsession⟩ := session_seed_then hv x s
  refine ⟨fun hwhole => ?_, fun hpartial => ?_⟩
  · have whole : (s.afterSeed v w).done = true := s.done_iff.2 hwhole
    exact ⟨_, _, hsession (.score c) _ _ (execScore_of_done rfl whole) rfl, rfl, rfl⟩
  · have unfinished : (s.afterSeed v w).done = false := s.done_eq_false_iff.2 hpartial
    have bounded : (s.afterSeed v w).advance.CountsBounded := hcounts
    obtain ⟨hdiff, hcnt⟩ := bounded.toNat_countByte unfinished (c ^^^ (s.afterSeed v w).nextByte)
    have ended := hsession (.score c) _ _ (execScore_of_ready rfl unfinished) rfl
    rw [← okBytes_singleton] at ended
    exact ⟨_, _, _, ended, hdiff, hcnt⟩

end Sys2Proof.Machine
end
